-- ==== Sys2Proof/Word.lean ====
section
/-! DEFINITION. The word types of the CORE and their plainest arithmetic (00_scope.md R11, R12). -/

namespace Sys2Proof

/-- One byte: a codeword (R114), a byte of the persisted record (R112), a half of a BUF element (log 7). -/
abbrev Byte := BitVec 8

/-- The 69 wires of the command port, `op` in bits 68:64 and `payload` in bits 63:0 (R92). -/
abbrev CmdWord := BitVec 69

/-- A value of the millisecond counter `now`, and every timestamp taken from it (R9, R93). -/
abbrev Millis := BitVec 32

/-- A 16-bit number of the bus: network ids, module addresses, tags, delays (R27, R99). -/
abbrev Half := BitVec 16

/-- The 27 bytes of the persisted record, byte 0 in bits 7:0 (R95, R102, R112). -/
abbrev RecordBits := BitVec 216

/-- A 5-bit symbol code: 0 to 15 data, 16 ACK, 17 NACK, 18 BUSY, 31 INVALID (R9, R115). -/
abbrev Symbol := BitVec 5

/-- The index of a track port, 0 to 7 (R7, R20). -/
abbrev PortIdx := Fin 8

/-- The index of an address slot of a port, 0 to 3 (R7, R24). -/
abbrev SlotIdx := Fin 4

/-- The number of 1 bits of a byte (R11). -/
def popcount (b : Byte) : Nat :=
  (List.range 8).countP (fun i => b.getLsbD i)

end Sys2Proof
end

