-- ==== Sys2Proof/Syntax.lean ====
section
/-! DEFINITION. The operations of the CORE (30_encoding.md R90, spec/opcode_table.json): one constructor a row, with
the operands R99 gives it. -/

namespace Sys2Proof

/-- The kind of a packet boundary, operand of `TRIGGER` (R231). -/
inductive Boundary where
  /-- 0, a cutout window: drives a decode-window capture -/
  | cutout
  /-- 1, an idle boundary: drives a current-sense capture -/
  | idle
  deriving DecidableEq, Repr

/-- One UART frame of a window (R116, R164): start tick, end tick, raw codeword, decoded symbol. Ticks are
naturals (log 16). -/
structure Frame where
  /-- the first low tick -/
  start : Nat
  /-- `end`, one past the last tick of the frame -/
  stop : Nat
  /-- the eight sampled data bits -/
  code : Byte
  /-- `DECROM[code]` -/
  sym : Symbol
  deriving DecidableEq, Repr

/-- The result of `EXTRACT` (R116): the signed direction count and the frames; `n` is the number of frames. -/
structure FrameRecord where
  /-- the signed `directionCount` of R167 -/
  directionCount : Int
  /-- the frames in ascending time order -/
  frames : List Frame
  deriving DecidableEq, Repr

/-- `n` of the frame record (R116). -/
def FrameRecord.n (r : FrameRecord) : Nat := r.frames.length

/-- The operations: 18 commands, 9 micro-operations (no op code, invoked by `TICK` or by the prologue of a message
command), 14 reserved op codes. `now`, `rand`, the store record and BUF are not operands here: they are read from
the sampled inputs and the buffer in State (R93 to R95). -/
inductive Instr where
  -- function commands (R97)
  | demod (off : Half) (thr : BitVec 17)
  | enc48 (sym : Symbol)
  | dec84 (byte : Byte)
  | extract (off : Half) (thr : BitVec 17)
  -- events
  | trigger (kind : Boundary)
  | capdone
  | tick
  | progopen
  | boot
  -- messages
  | rxPingreq (srcNid : Half)
  | rxPing (srcNid masterUid type sessionId : Half)
  | rxInfoGet (srcNid infoTag : Half)
  | rxCfgGet (srcNid : Half) (tag : BitVec 32)
  | rxCfgSet (srcNid : Half) (tag : BitVec 32) (value : Half)
  | rxAccdataGet (srcNid id : Half) (port type : Byte)
  | rxPort6Get (srcNid id : Half) (port type : Byte)
  | rxSetaddr (srcNid newAddress : Half)
  | rxOther (srcNid : Half)
  -- micro-operations
  | pair (p : PortIdx) (rec : FrameRecord)
  | slotupd (p : PortIdx) (addr : BitVec 14) (dir : BitVec 2)
  | slotexp
  | addrreport
  | occacc (p : PortIdx)
  | occdeb
  | progexp
  | keepalive
  | collision
  -- reserved op codes (R118); the payload is ignored
  | reserved00 (payload : BitVec 64)
  | reserved05 (payload : BitVec 64)
  | reserved06 (payload : BitVec 64)
  | reserved07 (payload : BitVec 64)
  | reserved0D (payload : BitVec 64)
  | reserved0E (payload : BitVec 64)
  | reserved0F (payload : BitVec 64)
  | reserved19 (payload : BitVec 64)
  | reserved1A (payload : BitVec 64)
  | reserved1B (payload : BitVec 64)
  | reserved1C (payload : BitVec 64)
  | reserved1D (payload : BitVec 64)
  | reserved1E (payload : BitVec 64)
  | reserved1F (payload : BitVec 64)
  deriving DecidableEq, Repr

end Sys2Proof
end

