-- ==== Sys2Proof/WellFormed.lean ====
section
/-! DEFINITION. Which operand values the spec admits. The operands of a command are well formed by their widths
(R99); the checks concern the micro-operations, whose operands the CORE makes itself. -/

namespace Sys2Proof

/-- A frame as `EXTRACT` makes it: `start >= 1`, `end = start + 40`, and a symbol code that occurs
(R115: 19 to 30 never do), R164, R169(b). -/
def Frame.wf (f : Frame) : Bool :=
  decide (1 ≤ f.start) && decide (f.stop = f.start + 40) && (decide (f.sym.toNat ≤ 18) || f.sym == 31)

/-- The frames do not overlap and come in ascending time order (R169(b)). -/
def framesAscend : List Frame → Bool
  | f :: g :: rest => decide (f.stop ≤ g.start) && framesAscend (g :: rest)
  | _ => true

/-- A frame record that `EXTRACT` can make: R116, R167, R169(a), (b). -/
def FrameRecord.wf (r : FrameRecord) : Bool :=
  decide (r.n ≤ 8) && decide (-64 ≤ r.directionCount ∧ r.directionCount ≤ 64) &&
  r.frames.all Frame.wf && framesAscend r.frames

/-- An address that a slot may come to hold: not 0 (the empty sentinel) and not 255 (R188, R190). -/
def slotAddressOk (a : BitVec 14) : Bool := a != 0 && a != 255

/-- A direction code that occurs: 3 never does (R24, R118). -/
def directionOk (d : BitVec 2) : Bool := d != 3

/-- The well-formed operations: every command and reserved word, and the micro-operations on the operands their
rules name. -/
def Instr.wf : Instr → Bool
  | .pair _ rec => rec.wf
  | .slotupd _ addr dir => slotAddressOk addr && directionOk dir
  | .demod _ _ | .enc48 _ | .dec84 _ | .extract _ _ => true
  | .trigger _ | .capdone | .tick | .progopen | .boot => true
  | .rxPingreq _ | .rxPing _ _ _ _ | .rxInfoGet _ _ | .rxCfgGet _ _ | .rxCfgSet _ _ _ => true
  | .rxAccdataGet _ _ _ _ | .rxPort6Get _ _ _ _ | .rxSetaddr _ _ | .rxOther _ => true
  | .slotexp | .addrreport | .occacc _ | .occdeb | .progexp | .keepalive | .collision => true
  | .reserved00 _ | .reserved05 _ | .reserved06 _ | .reserved07 _ => true
  | .reserved0D _ | .reserved0E _ | .reserved0F _ => true
  | .reserved19 _ | .reserved1A _ | .reserved1B _ | .reserved1C _ => true
  | .reserved1D _ | .reserved1E _ | .reserved1F _ => true

end Sys2Proof
end

