-- ==== Sys2Proof/Decode.lean ====
section
/-! DEFINITION. The decoder of the command port and its inverse, from the tables of 30_encoding.md R90 (op codes)
and R99 (payload layouts). Every one of the 32 op codes is a command or reserved, so no word is rejected: a
reserved word is rejected by the operation it decodes to, with status RESERVED (R118). -/

namespace Sys2Proof

/-- `op = cmd[68:64]` (R92). -/
def opOf (w : CmdWord) : BitVec 5 := w.extractLsb' 64 5

/-- `payload = cmd[63:0]` (R92). -/
def payloadOf (w : CmdWord) : BitVec 64 := w.extractLsb' 0 64

/-- The slice of `n` bits of a payload from bit `lo` up (R11). -/
def field (p : BitVec 64) (lo n : Nat) : BitVec n := p.extractLsb' lo n

/-- `kind = payload[0]`: 0 CUTOUT, 1 IDLE (R99). -/
def boundaryOf (b : BitVec 1) : Boundary := if b = 0 then .cutout else .idle

/-- The bit that codes a boundary kind (R99). -/
def boundaryBit : Boundary → BitVec 1
  | .cutout => 0
  | .idle => 1

/-- The operation an op code and a payload stand for (R90, R99, R118). The last arm is 0x1F: an op code has 5
bits. -/
def decodeFields (op : BitVec 5) (p : BitVec 64) : Instr :=
  match op.toNat with
  | 0x00 => .reserved00 p
  | 0x01 => .demod (field p 17 16) (field p 0 17)
  | 0x02 => .enc48 (field p 0 5)
  | 0x03 => .dec84 (field p 0 8)
  | 0x04 => .extract (field p 17 16) (field p 0 17)
  | 0x05 => .reserved05 p
  | 0x06 => .reserved06 p
  | 0x07 => .reserved07 p
  | 0x08 => .trigger (boundaryOf (field p 0 1))
  | 0x09 => .capdone
  | 0x0A => .tick
  | 0x0B => .progopen
  | 0x0C => .boot
  | 0x0D => .reserved0D p
  | 0x0E => .reserved0E p
  | 0x0F => .reserved0F p
  | 0x10 => .rxPingreq (field p 48 16)
  | 0x11 => .rxPing (field p 48 16) (field p 32 16) (field p 16 16) (field p 0 16)
  | 0x12 => .rxInfoGet (field p 48 16) (field p 32 16)
  | 0x13 => .rxCfgGet (field p 48 16) (field p 16 32)
  | 0x14 => .rxCfgSet (field p 48 16) (field p 16 32) (field p 0 16)
  | 0x15 => .rxAccdataGet (field p 48 16) (field p 32 16) (field p 24 8) (field p 16 8)
  | 0x16 => .rxPort6Get (field p 48 16) (field p 32 16) (field p 24 8) (field p 16 8)
  | 0x17 => .rxSetaddr (field p 48 16) (field p 32 16)
  | 0x18 => .rxOther (field p 48 16)
  | 0x19 => .reserved19 p
  | 0x1A => .reserved1A p
  | 0x1B => .reserved1B p
  | 0x1C => .reserved1C p
  | 0x1D => .reserved1D p
  | 0x1E => .reserved1E p
  | _ => .reserved1F p

/-- The decoder of the command port: total on the 69-bit words. -/
def decode (w : CmdWord) : Instr := decodeFields (opOf w) (payloadOf w)

/-- A command word from its op code and payload: `cmd[68:64]`, `cmd[63:0]` (R92). -/
def mkWord (op : BitVec 5) (p : BitVec 64) : CmdWord := op ++ p

/-- Op code and payload of an operation, the bits its row does not name 0 (R90, R99); none for a
micro-operation, which has no op code. -/
def encodeFields : Instr → Option (BitVec 5 × BitVec 64)
  | .demod off thr => some (0x01, (0#31 ++ off ++ thr))
  | .enc48 sym => some (0x02, (0#59 ++ sym))
  | .dec84 byte => some (0x03, (0#56 ++ byte))
  | .extract off thr => some (0x04, (0#31 ++ off ++ thr))
  | .trigger kind => some (0x08, (0#63 ++ boundaryBit kind))
  | .capdone => some (0x09, 0)
  | .tick => some (0x0A, 0)
  | .progopen => some (0x0B, 0)
  | .boot => some (0x0C, 0)
  | .rxPingreq srcNid => some (0x10, (srcNid ++ 0#48))
  | .rxPing srcNid masterUid type sessionId => some (0x11, (srcNid ++ masterUid ++ type ++ sessionId))
  | .rxInfoGet srcNid infoTag => some (0x12, (srcNid ++ infoTag ++ 0#32))
  | .rxCfgGet srcNid tag => some (0x13, (srcNid ++ tag ++ 0#16))
  | .rxCfgSet srcNid tag value => some (0x14, (srcNid ++ tag ++ value))
  | .rxAccdataGet srcNid id port type => some (0x15, (srcNid ++ id ++ port ++ type ++ 0#16))
  | .rxPort6Get srcNid id port type => some (0x16, (srcNid ++ id ++ port ++ type ++ 0#16))
  | .rxSetaddr srcNid newAddress => some (0x17, (srcNid ++ newAddress ++ 0#32))
  | .rxOther srcNid => some (0x18, (srcNid ++ 0#48))
  | .pair _ _ | .slotupd _ _ _ | .slotexp | .addrreport | .occacc _ => none
  | .occdeb | .progexp | .keepalive | .collision => none
  | .reserved00 p => some (0x00, p)
  | .reserved05 p => some (0x05, p)
  | .reserved06 p => some (0x06, p)
  | .reserved07 p => some (0x07, p)
  | .reserved0D p => some (0x0D, p)
  | .reserved0E p => some (0x0E, p)
  | .reserved0F p => some (0x0F, p)
  | .reserved19 p => some (0x19, p)
  | .reserved1A p => some (0x1A, p)
  | .reserved1B p => some (0x1B, p)
  | .reserved1C p => some (0x1C, p)
  | .reserved1D p => some (0x1D, p)
  | .reserved1E p => some (0x1E, p)
  | .reserved1F p => some (0x1F, p)

/-- The command word of an operation, if it has one (R90). -/
def encode (i : Instr) : Option CmdWord :=
  (encodeFields i).map fun f => mkWord f.1 f.2

/-- The word that number `w` puts on the 69 wires of the command port: a wire above bit 68 does not exist
(R92, log 13). -/
def wordOfNat (w : Nat) : CmdWord := BitVec.ofNat 69 w

/-- The operation the decoder reads from the table word `w` (bit 0 the least significant bit of the command
word). A command has one fixed length (R118), so `nbits` does not matter. -/
def decodeTableWord (_nbits w : Nat) : Option Instr := some (decode (wordOfNat w))

end Sys2Proof
end

