-- ==== Sys2Proof/Config.lean ====
section
/-! DEFINITION. The open parameters of the CORE (00_scope.md R8): one record of plain data, the constraints the
spec puts on it, the spec's test configuration, the uninterpreted parameters of the module being modelled, and the one
free value. -/

namespace Sys2Proof

/-- The parameters "doc00 names or needs but gives no value for" (R8). Every one is an argument of the model.
`pairFields` is the graph of the total function `PAIR_FIELDS` of R182: entry `16 * n0 + n1` is `(id, value)`. -/
structure Config where
  /-- `WIN_LEN`, samples in a decode-window capture -/
  winLen : Nat
  /-- `CS_LEN`, samples in a current-sense capture -/
  csLen : Nat
  /-- `SAMPLE_W`, bits of one sample -/
  sampleW : Nat
  /-- `K_NUM` of `K = K_NUM / K_DEN` -/
  kNum : Nat
  /-- `K_DEN` -/
  kDen : Nat
  /-- `K2_NUM` of `K2 = K2_NUM / K2_DEN` -/
  k2Num : Nat
  /-- `K2_DEN` -/
  k2Den : Nat
  /-- `CODE[0..18]`, the forward codeword table (R143) -/
  code : Vector Byte 19
  /-- `PAIR_FIELDS`, as a table (R182) -/
  pairFields : Vector (BitVec 4 × BitVec 8) 256
  /-- `OCC_N`, current-sense samples per classification -/
  occN : Nat
  /-- `MAX_CONSEC`, decode captures before the railcom cursor advances -/
  maxConsec : Nat
  /-- `RAILCOM_TIMEOUT_MS` -/
  railcomTimeoutMs : Millis
  /-- `ID_MIN` -/
  idMin : Half
  /-- `ID_MAX` -/
  idMax : Half
  /-- `PING_INTERVAL_MS` -/
  pingIntervalMs : Millis
  /-- `PROG_WINDOW_MS` -/
  progWindowMs : Millis
  /-- `MODULE_TYPE` -/
  moduleType : Half
  /-- `HW_VERSION` -/
  hwVersion : BitVec 32
  /-- `FW_VERSION` -/
  fwVersion : BitVec 32
  /-- `BUILD_DATE` -/
  buildDate : BitVec 32
  /-- `INFO_TAG_HW` -/
  infoTagHw : Half
  /-- `INFO_TAG_FW` -/
  infoTagFw : Half
  /-- `INFO_TAG_DATE` -/
  infoTagDate : Half
  /-- `INFO_TAG_ID` -/
  infoTagId : Half
  /-- `INFO_TAG_TYPE` -/
  infoTagType : Half
  /-- `NID_PREFIX_MASK` (R282) -/
  nidPrefixMask : Half
  /-- `DEF_MODULE_ADDRESS`, a first-boot default (R354), as the five after it -/
  defModuleAddress : Half
  /-- `DEF_SEND_CH2` -/
  defSendCh2 : Bool
  /-- `DEF_CURRENT_MA` -/
  defCurrentMa : Half
  /-- `DEF_FREE_TO_SET_MS` -/
  defFreeToSetMs : Half
  /-- `DEF_SET_TO_FREE_MS` -/
  defSetToFreeMs : Half
  /-- `DEF_VOLTAGE_OFFSET` -/
  defVoltageOffset : Half
  deriving DecidableEq, Repr

/-- The five module-info tags in the order of R274. -/
def Config.infoTags (c : Config) : List Half :=
  [c.infoTagHw, c.infoTagFw, c.infoTagDate, c.infoTagId, c.infoTagType]

/-- The constraints of R8 and R143 on the parameters: exactly what a statement may assume of them. -/
abbrev Config.wf (c : Config) : Prop :=
  1 ≤ c.winLen ∧ 1 ≤ c.csLen ∧ 1 ≤ c.sampleW ∧ c.sampleW ≤ 16 ∧ 1 ≤ c.kDen ∧ 1 ≤ c.k2Den ∧
  (∀ b ∈ c.code.toList, popcount b = 4) ∧ c.code.toList.Nodup ∧
  1 ≤ c.occN ∧ 1 ≤ c.maxConsec ∧
  1 ≤ c.idMin.toNat ∧ c.idMin.toNat ≤ c.idMax.toNat ∧ c.idMax.toNat ≤ 0xFFFE ∧
  1 ≤ c.pingIntervalMs.toNat ∧ c.infoTags.Nodup

/-- `REFCODE` of R146, for tests only: "all a model may rely on" of it is R143. -/
def refCode : Vector Byte 19 :=
  #v[0xAC, 0xAA, 0xA9, 0xA5, 0xA3, 0xA6, 0x9C, 0x9A, 0x99, 0x95,
     0x93, 0x96, 0x8E, 0x8D, 0x8B, 0xB1, 0x0F, 0x3C, 0xE1]

/-- `REF_PAIR_FIELDS(n0, n1) = (n0, zext n1)` of R183, for tests only. -/
def refPairFields : Vector (BitVec 4 × BitVec 8) 256 :=
  Vector.ofFn fun i => (BitVec.ofNat 4 (i.val / 16), BitVec.ofNat 8 (i.val % 16))

/-- `TESTCFG` of R10: the configuration of the spec's test vectors, no claim about a real module. It serves the
tests, and shows that the constraints `Config.wf` can be met. -/
def testConfig : Config where
  winLen := 200
  csLen := 4
  sampleW := 12
  kNum := 1
  kDen := 10
  k2Num := 1
  k2Den := 20
  code := refCode
  pairFields := refPairFields
  occN := 4
  maxConsec := 2
  railcomTimeoutMs := 500
  idMin := 0xC000
  idMax := 0xCFFF
  pingIntervalMs := 1000
  progWindowMs := 10000
  moduleType := 0x9201
  hwVersion := 0x00010000
  fwVersion := 0x00010007
  buildDate := 0x20240101
  infoTagHw := 1
  infoTagFw := 2
  infoTagDate := 3
  infoTagId := 4
  infoTagType := 5
  nidPrefixMask := 0xFFFF
  defModuleAddress := 0x0100
  defSendCh2 := false
  defCurrentMa := 1000
  defFreeToSetMs := 100
  defSetToFreeMs := 1000
  defVoltageOffset := 2000

theorem testConfig_wf : testConfig.wf := by decide

/-- Parameters together with the proof that they meet R8: the parameters of one module. -/
structure Board where
  /-- the parameters -/
  params : Config := testConfig
  /-- they meet the constraints of R8 -/
  ok : params.wf := by exact testConfig_wf
  deriving Inhabited

/-- The module being modelled: an UNINTERPRETED constant (log 2). Nothing in Lean can evaluate its parameters; all
that is known of them is `Config.board.ok`. -/
opaque Config.board : Board

/-- FREE VALUE (log 18): what element `i` of BUF holds after a fill that breaks the sampler's duty (70_reset_and_hazards.md
R363) by supplying more samples than BUF has elements, from the memory before it and the samples. The spec leaves it open:
"any value" (93_implementation_defined.md U13). -/
opaque Config.overfill : List Host.Cell → List Half → Nat → Half

end Sys2Proof
end

