-- ==== Sys2Proof/Machine/State.lean ====
section
/-! DEFINITION. The state of the CORE as plain data (10_state.md R20 to R37), the records on its output channels
(30_encoding.md R98, R100 to R108), what the host can do next (R91 to R96), the reasons a step can stop, and the
state after reset. -/

namespace Sys2Proof.Machine

/-- Why a step stops with a fault: there is no such reason. The CORE has no fault (60_exceptions.md R310, R319), and
where the host breaks a duty "nothing is undefined inside the CORE" (70_reset_and_hazards.md R362). SAFE: nothing raises
one. -/
inductive Fault where
  deriving DecidableEq, Repr

/-- Why a step is refused. -/
inductive Refusal where
  /-- Raised by an arm of `exec` whose operation has no meaning yet: by no arm of this model. SAFE. -/
  | notModelled (mnemonic : String)
  deriving DecidableEq, Repr

/-- `port[p]` (R22). -/
structure PortRegs where
  /-- the raw state: true = 1 = Occupied, false = 0 = Free -/
  state : Bool
  /-- true iff the raw state equals the state last announced (R23) -/
  reported : Bool
  /-- `now` at the last flip of `state` -/
  lastChangeTimestamp : Millis
  /-- the quiescent baseline -/
  voltageOffset : Half
  /-- sum of absolute deviations since the last classification (log 9) -/
  accSum : Nat
  /-- samples in that sum (log 9) -/
  accCount : Nat
  deriving DecidableEq, Repr

/-- `slot[p][k]` (R24). -/
structure Slot where
  /-- 0 = empty -/
  address : BitVec 14
  /-- 0 unknown, 1 forward, 2 reverse -/
  direction : BitVec 2
  /-- `now` of the last sighting -/
  lastSeenTimestamp : Millis
  /-- false: changed since the last address notification of the port -/
  reported : Bool
  deriving DecidableEq, Repr

/-- `chan[p]` (R26). -/
structure Chan where
  /-- id of the last accepted channel-1 pair, 0 for none -/
  lastSymbolId : BitVec 4
  /-- its value -/
  lastSymbolValue : BitVec 8
  deriving DecidableEq, Repr

/-- `cfg`, the ModuleConfig (R27). -/
structure ModuleConfig where
  networkId : Half
  moduleAddress : Half
  sendChannel2Data : Bool
  /-- mA -/
  trackSetCurrentThreshold : Half
  /-- ms -/
  trackFreeToSetDelay : Half
  /-- ms -/
  trackSetToFreeDelay : Half
  voltageOffset : Vector Half 8
  deriving DecidableEq, Repr

/-- `thr`, the two derived thresholds (R36), saturated at `2^(SAMPLE_W+1) - 1`, which 17 bits hold for every
`SAMPLE_W <= 16`. -/
structure Thresholds where
  thresholdVoltage : BitVec 17
  trackSetVoltage : BitVec 17
  deriving DecidableEq, Repr

/-- `sess`, the ProtocolSession (R29). -/
structure Session where
  /-- false = NoMaster, true = HasMaster -/
  hasMaster : Bool
  masterNetworkId : Half
  sessionId : Half
  deriving DecidableEq, Repr

/-- `resp` (R30). -/
structure Responder where
  lastPingTime : Millis
  deriving DecidableEq, Repr

/-- `prog`, the address-programming window (R31). -/
structure ProgWindow where
  active : Bool
  openedAt : Millis
  deriving DecidableEq, Repr

/-- `sched.capPurpose` (R32). -/
inductive Purpose where
  /-- 0, decode window -/
  | railcom
  /-- 1, current sense -/
  | current
  deriving DecidableEq, Repr

/-- `sched`, the PortScheduler (R32). -/
structure Scheduler where
  csCursor : PortIdx
  rcCursor : PortIdx
  /-- decode captures started for `rcCursor` since it advanced (log 9) -/
  rcCount : Nat
  captureRunning : Bool
  dataReady : Bool
  capPort : PortIdx
  capPurpose : Purpose
  deriving DecidableEq, Repr

/-- A memory: listed (address, byte) pairs, addresses strictly rising, no byte equal to what an unlisted address
reads as (`Memory.unlisted`, log 6). -/
abbrev Memory := List Host.Cell

/-- The status of a command (R98). -/
inductive Status where
  | done
  | handled
  | unhandled
  | ignored
  | reserved
  | collision
  deriving DecidableEq, Repr

/-- The value part of a result record (R98). -/
inductive ResultValue where
  /-- "all other commands return no value" -/
  | none
  /-- of `ENC48` -/
  | codeword (c : Byte)
  /-- of `DEC84` -/
  | sym (s : Symbol)
  /-- of `DEMOD`: `bits`, element `i` is `bit[i]` -/
  | bits (b : List Bool)
  /-- of `EXTRACT` -/
  | frames (r : FrameRecord)
  deriving DecidableEq, Repr

/-- A record on the `res` channel (R98). -/
structure Result where
  status : Status
  value : ResultValue
  deriving DecidableEq, Repr

/-- A record on the `tx` channel (R103 to R108). In each, `srcNid` is `cfg.networkId` at the time of the emit. -/
inductive TxRecord where
  /-- `TX_PING` (R104) -/
  | ping (srcNid masterId moduleType sessionId : Half)
  /-- `TX_INFO_ACK` (R105) -/
  | infoAck (srcNid infoTag : Half) (value : BitVec 32)
  /-- `TX_CFG_ACK` (R106) -/
  | cfgAck (srcNid : Half) (tag : BitVec 32) (value : Half)
  /-- `TX_ACCDATA` (R107) -/
  | accData (srcNid id : Half) (port type : Byte) (w0 w1 : Half)
  /-- `TX_PORT6` (R108) -/
  | port6 (srcNid id : Half) (port type : Byte) (word : Half)
  deriving DecidableEq, Repr

/-- One output record of an operation (R96, R100). The records wait in one list in emission order (log 12). -/
inductive Output where
  /-- channel `arm` (R101) -/
  | arm (port : PortIdx) (purpose : Purpose)
  /-- channel `persist` (R102) -/
  | persist (record : RecordBits)
  /-- channel `tx` (R103) -/
  | tx (m : TxRecord)
  /-- channel `res` (R98) -/
  | res (r : Result)
  deriving DecidableEq, Repr

/-- The four output channels (R96). -/
inductive Channel where
  | arm
  | persist
  | tx
  | res
  deriving DecidableEq, Repr

/-- The input ports as sampled at the acceptance of a command (R93, R95). -/
structure Inputs where
  now : Millis
  rand : Half
  storePresent : Bool
  storeRec : RecordBits
  deriving DecidableEq, Repr

/-- What the host does next (log 1). -/
inductive HostEvent where
  /-- it presents a command word with the other input ports at these levels (R92, R93, R95) -/
  | command (word : CmdWord) (inp : Inputs)
  /-- the sampler fills BUF from element 0 (R61, R363) -/
  | fill (samples : List Half)
  /-- it takes the first waiting record of a channel (R96, R367) -/
  | take (ch : Channel)
  /-- `rst` is 1 at a rising clock edge (R91, R350) -/
  | rst
  deriving DecidableEq, Repr

/-- The state of the CORE and of its interface. -/
structure State where
  /-- the open parameters (R8), fixed for the machine: no step changes them (log 2) -/
  config : Config
  /-- 0 after reset, 1 after `BOOT` (R33) -/
  booted : Bool
  /-- `port[0..7]` -/
  ports : Vector PortRegs 8
  /-- `slot[0..7][0..3]` -/
  slots : Vector (Vector Slot 4) 8
  /-- `chan[0..7]` -/
  chans : Vector Chan 8
  cfg : ModuleConfig
  thr : Thresholds
  sess : Session
  resp : Responder
  prog : ProgWindow
  sched : Scheduler
  /-- BUF (R61), sample `i` at byte addresses `2*i` and `2*i + 1` (log 7) -/
  buf : Memory
  /-- the input ports as sampled at the last acceptance (the model's own field, log 5) -/
  inp : Inputs
  /-- output records not yet taken, in emission order (R96, R367) -/
  out : List Output
  /-- what the host does next (the model's own field, log 1) -/
  host : List HostEvent
  deriving DecidableEq, Repr

/-- `port[p]` after `rst` (R37). -/
def PortRegs.reset : PortRegs :=
  { state := false, reported := true, lastChangeTimestamp := 0, voltageOffset := 0, accSum := 0, accCount := 0 }

/-- `slot[p][k]` after `rst` (R37). -/
def Slot.reset : Slot := { address := 0, direction := 0, lastSeenTimestamp := 0, reported := true }

/-- `chan[p]` after `rst` (R37), and after a rejected window (R185, R186). -/
def Chan.reset : Chan := { lastSymbolId := 0, lastSymbolValue := 0 }

/-- `cfg` after `rst`: the spec leaves it unspecified (R37), DESIGN CHOICE all zero (log 3). -/
def ModuleConfig.reset : ModuleConfig :=
  { networkId := 0, moduleAddress := 0, sendChannel2Data := false, trackSetCurrentThreshold := 0,
    trackFreeToSetDelay := 0, trackSetToFreeDelay := 0, voltageOffset := #v[0, 0, 0, 0, 0, 0, 0, 0] }

/-- `thr` after `rst`: the spec leaves it unspecified (R37), DESIGN CHOICE zero (log 4). -/
def Thresholds.reset : Thresholds := { thresholdVoltage := 0, trackSetVoltage := 0 }

/-- `sched` after `rst` (R37). -/
def Scheduler.reset : Scheduler :=
  { csCursor := 0, rcCursor := 0, rcCount := 0, captureRunning := false, dataReady := false,
    capPort := 0, capPurpose := .railcom }

/-- The sampled inputs before any command: DESIGN CHOICE all zero (log 5). -/
def Inputs.reset : Inputs := { now := 0, rand := 0, storePresent := false, storeRec := 0 }

/-- Every register of the CORE at the value of the reset table R37, for the parameters `c`; no sample in BUF, no
output record, nothing presented by the host. -/
def State.resetWith (c : Config) : State :=
  { config := c
    booted := false
    ports := Vector.ofFn fun _ => PortRegs.reset
    slots := Vector.ofFn fun _ => Vector.ofFn fun _ => Slot.reset
    chans := Vector.ofFn fun _ => Chan.reset
    cfg := ModuleConfig.reset
    thr := Thresholds.reset
    sess := { hasMaster := false, masterNetworkId := 0, sessionId := 0 }
    resp := { lastPingTime := 0 }
    prog := { active := false, openedAt := 0 }
    sched := Scheduler.reset
    buf := []
    inp := Inputs.reset
    out := []
    host := [] }

/-- The machine right after reset: the module modelled has the uninterpreted parameters `Config.board`. -/
def State.reset : State := State.resetWith Config.board.params

end Sys2Proof.Machine
end

