-- ==== Sys2Proof/Machine/Operands.lean ====
section
/-! DEFINITION. The pure functions of the rules: arithmetic (00_scope.md R12), the code tables (20_memory.md R62), the
thresholds (10_state.md R36), the configuration tag space (R66), the packed formats (30_encoding.md R101 to R117) and
the persisted record (R112). -/

namespace Sys2Proof.Machine

/-- `absdiff(a, b)` (R12). -/
def absdiff (a b : Nat) : Nat := if b ≤ a then a - b else b - a

/-- `elapsed(now, t) = (now - t) mod 2^32` (R12, R333). -/
def elapsed (now t : Millis) : Nat := (now - t).toNat

/-- The deadline of `d` milliseconds after `t` is met at `now` (R12, R333). -/
def deadlineMet (now t : Millis) (d : Nat) : Bool := decide (d ≤ elapsed now t)

/-! ### The code tables (R62) and symbols (R115) -/

/-- `SYM_INVALID` (R9). -/
def symInvalid : Symbol := 31

/-- `ENCROM[s]`, for the 19 symbols that have a codeword (R62). -/
def encRom (c : Config) (s : Symbol) : Option Byte := c.code.toList[s.toNat]?

/-- `DECROM[b]`: the `s` with `CODE[s] = b` if there is one, else INVALID (R62). -/
def decRom (c : Config) (b : Byte) : Symbol :=
  match c.code.toList.findIdx? (fun x => x == b) with
  | some s => BitVec.ofNat 5 s
  | none => symInvalid

/-- `isData(s)` (R115). -/
def isData (s : Symbol) : Bool := decide (s.toNat ≤ 15)

/-- `isValid(s)` (R115). -/
def isValid (s : Symbol) : Bool := decide (s.toNat ≤ 18)

/-- `PAIR_FIELDS(n0, n1) = (id, value)` of two data symbols (R182). -/
def pairFieldsOf (c : Config) (s0 s1 : Symbol) : BitVec 4 × BitVec 8 :=
  c.pairFields.get (s0.setWidth 4 ++ s1.setWidth 4).toFin

/-! ### Addresses and directions -/

/-- The mask `ADDR_HI_MASK` (R9). -/
def addrHiMask : BitVec 8 := 0x3F

/-- `((h & 0x3F) << 8) | l`, 14 bits (R117, R187). -/
def assembleAddress (h l : BitVec 8) : BitVec 14 :=
  ((h &&& addrHiMask).setWidth 14 <<< 8) ||| l.setWidth 14

/-- `direction(dc)`: 1 forward, 2 reverse, 0 unknown (R189). -/
def directionOf (dc : Int) : BitVec 2 :=
  if 0 < dc then 1 else if dc < 0 then 2 else 0

/-- The packed slot word `(direction << 14) | address` (R110). -/
def packSlot (sl : Slot) : Half := sl.direction ++ sl.address

/-! ### The thresholds (R36) -/

/-- `sat(floor(num * i / den))` at `2^(SAMPLE_W+1) - 1` (R36). -/
def threshold (c : Config) (num den : Nat) (i : Half) : BitVec 17 :=
  BitVec.ofNat 17 (min (num * i.toNat / den) (2 ^ (c.sampleW + 1) - 1))

/-- Both thresholds of a current rating `i` in mA (R36). -/
def thresholdsOf (c : Config) (i : Half) : Thresholds :=
  { thresholdVoltage := threshold c c.kNum c.kDen i
    trackSetVoltage := threshold c c.k2Num c.k2Den i }

/-! ### The network id -/

/-- `ID_MIN + (rand mod (ID_MAX - ID_MIN + 1))` (R266, R354). -/
def drawNetworkId (c : Config) (rand : Half) : Half :=
  BitVec.ofNat 16 (c.idMin.toNat + rand.toNat % (c.idMax.toNat - c.idMin.toNat + 1))

/-- `idMatch(id)` (R282). -/
def idMatch (c : Config) (cfg : ModuleConfig) (id : Half) : Bool :=
  id == cfg.moduleAddress || (id &&& c.nidPrefixMask) == (cfg.networkId &&& c.nidPrefixMask)

/-- The type mask a ping must match (R7, R270). -/
def masterTypeMask : Half := 0x2000

/-- `(type & 0x2000) = 0x2000` (R270). DESIGN CHOICE (log 21): this test alone decides, also for a `type` equal to a
`MODULE_TYPE` that has bit 13 set, which R273 calls non-qualifying and R8 does not exclude. -/
def pingQualifies (type : Half) : Bool := (type &&& masterTypeMask) == masterTypeMask

/-! ### The configuration tag space (R66, R276) -/

/-- The fields of `cfg` a tag can select. -/
inductive CfgField where
  | sendChannel2Data
  | trackSetCurrentThreshold
  | trackFreeToSetDelay
  | trackSetToFreeDelay
  deriving DecidableEq, Repr

/-- `sel(tag)`: the row chosen by `tag[31:16]` (R66, R276). -/
def selectField (tag : BitVec 32) : Option CfgField :=
  match (tag.extractLsb' 16 16).toNat with
  | 0x0022 => some .sendChannel2Data
  | 0x0040 => some .trackSetCurrentThreshold
  | 0x0050 => some .trackFreeToSetDelay
  | 0x0051 => some .trackSetToFreeDelay
  | _ => none

/-- `zext_16(cfg.f)` (R277). -/
def readField (cfg : ModuleConfig) : CfgField → Half
  | .sendChannel2Data => if cfg.sendChannel2Data then 1 else 0
  | .trackSetCurrentThreshold => cfg.trackSetCurrentThreshold
  | .trackFreeToSetDelay => cfg.trackFreeToSetDelay
  | .trackSetToFreeDelay => cfg.trackSetToFreeDelay

/-- `cfg.f <- value`; the flag is stored as `value != 0` (R280). -/
def writeField (cfg : ModuleConfig) (f : CfgField) (value : Half) : ModuleConfig :=
  match f with
  | .sendChannel2Data => { cfg with sendChannel2Data := value != 0 }
  | .trackSetCurrentThreshold => { cfg with trackSetCurrentThreshold := value }
  | .trackFreeToSetDelay => { cfg with trackFreeToSetDelay := value }
  | .trackSetToFreeDelay => { cfg with trackSetToFreeDelay := value }

/-- The answer to a module-info query (R274); none for an unknown tag. -/
def infoValue (c : Config) (cfg : ModuleConfig) (infoTag : Half) : Option (BitVec 32) :=
  if infoTag = c.infoTagHw then some c.hwVersion
  else if infoTag = c.infoTagFw then some c.fwVersion
  else if infoTag = c.infoTagDate then some c.buildDate
  else if infoTag = c.infoTagId then some (cfg.moduleAddress.setWidth 32)
  else if infoTag = c.infoTagType then some (c.moduleType.setWidth 32)
  else none

/-! ### Accessory types (R109) -/

/-- `ACC_TYPE_A`, slots 0 and 1. -/
def accTypeA : Byte := 0x11

/-- `ACC_TYPE_B`, slots 2 and 3. -/
def accTypeB : Byte := 0x12

/-- `PORT6_TYPE`. -/
def port6Type : Byte := 0x01

/-- The slots a query type asks for (R283); none for an unknown type. -/
def accSlots (type : Byte) : Option (SlotIdx × SlotIdx) :=
  if type = accTypeA then some (0, 1) else if type = accTypeB then some (2, 3) else none

/-- The port a query names, none for 8 and above (R283, R285). -/
def portOf (port : Byte) : Option PortIdx :=
  if h : port.toNat < 8 then some ⟨port.toNat, h⟩ else none

/-- A port index as the 8-bit field of a record (R107, R108). -/
def portByte (p : PortIdx) : Byte := BitVec.ofNat 8 p.val

/-! ### The persisted record (R112) -/

/-- The two-byte field at byte offset `off`: little-endian, so bits `8*off + 15 .. 8*off` (R67, R95, R112). -/
def recordHalf (r : RecordBits) (off : Nat) : Half := r.extractLsb' (8 * off) 16

/-- The byte at offset `off` (R95). -/
def recordByte (r : RecordBits) (off : Nat) : Byte := r.extractLsb' (8 * off) 8

/-- `record(cfg)`: the 27 bytes of R112, byte 0 lowest. -/
def encodeRecord (cfg : ModuleConfig) : RecordBits :=
  cfg.voltageOffset[7] ++ cfg.voltageOffset[6] ++ cfg.voltageOffset[5] ++ cfg.voltageOffset[4] ++
  cfg.voltageOffset[3] ++ cfg.voltageOffset[2] ++ cfg.voltageOffset[1] ++ cfg.voltageOffset[0] ++
  cfg.trackSetToFreeDelay ++ cfg.trackFreeToSetDelay ++ cfg.trackSetCurrentThreshold ++
  (if cfg.sendChannel2Data then 0x01#8 else 0x00#8) ++ cfg.moduleAddress ++ cfg.networkId

/-- `decode(store_rec)`, field by field (R112, R352); any non-zero byte 4 reads as 1. -/
def decodeRecord (r : RecordBits) : ModuleConfig :=
  { networkId := recordHalf r 0
    moduleAddress := recordHalf r 2
    sendChannel2Data := recordByte r 4 != 0
    trackSetCurrentThreshold := recordHalf r 5
    trackFreeToSetDelay := recordHalf r 7
    trackSetToFreeDelay := recordHalf r 9
    voltageOffset := Vector.ofFn fun p => recordHalf r (11 + 2 * p.val) }

/-- The stored record is present and its network id is no sentinel (R352, NID_SENTINELS of R7). -/
def storedRecordValid (i : Inputs) : Bool :=
  i.storePresent && recordHalf i.storeRec 0 != 0x0000 && recordHalf i.storeRec 0 != 0xFFFF

/-- First-boot initialisation (R354). -/
def firstBootConfig (c : Config) (rand : Half) : ModuleConfig :=
  { networkId := drawNetworkId c rand
    moduleAddress := c.defModuleAddress
    sendChannel2Data := c.defSendCh2
    trackSetCurrentThreshold := c.defCurrentMa
    trackFreeToSetDelay := c.defFreeToSetMs
    trackSetToFreeDelay := c.defSetToFreeMs
    voltageOffset := Vector.ofFn fun _ => c.defVoltageOffset }

/-- The `cfg` that `BOOT` loads or makes (R352). -/
def bootConfig (c : Config) (i : Inputs) : ModuleConfig :=
  if storedRecordValid i then decodeRecord i.storeRec else firstBootConfig c i.rand

/-! ### The wires of the output channels (R98, R101 to R108, R116) -/

/-- `status` on `res[2:0]` (R98). -/
def statusCode : Status → BitVec 3
  | .done => 0
  | .handled => 1
  | .unhandled => 2
  | .ignored => 3
  | .reserved => 4
  | .collision => 5

/-- `purpose` on `arm[0]` (R101). -/
def purposeBit : Purpose → BitVec 1
  | .railcom => 0
  | .current => 1

/-- `arm[3:0]` (R101). -/
def armWire (p : PortIdx) (u : Purpose) : BitVec 4 := BitVec.ofNat 3 p.val ++ purposeBit u

/-- `tx[82:0]`: `txkind`, `srcNid`, then the body, unused low bits 0 (R103 to R108). -/
def txWire : TxRecord → BitVec 83
  | .ping srcNid masterId moduleType sessionId =>
      0#3 ++ srcNid ++ masterId ++ moduleType ++ sessionId ++ 0#16
  | .infoAck srcNid infoTag value => 1#3 ++ srcNid ++ infoTag ++ value ++ 0#16
  | .cfgAck srcNid tag value => 2#3 ++ srcNid ++ tag ++ value ++ 0#16
  | .accData srcNid id port type w0 w1 => 3#3 ++ srcNid ++ id ++ port ++ type ++ w0 ++ w1
  | .port6 srcNid id port type word => 4#3 ++ srcNid ++ id ++ port ++ type ++ word ++ 0#16

/-- One frame on the wires, `start ++ end ++ code ++ sym` (R116). -/
def frameWire (f : Frame) : BitVec 45 :=
  BitVec.ofNat 16 f.start ++ BitVec.ofNat 16 f.stop ++ f.code ++ f.sym

/-- Frame `j` of a record on the wires, zero where there is none (R116). -/
def frameEntry (r : FrameRecord) (j : Nat) : BitVec 45 :=
  match r.frames[j]? with
  | some f => frameWire f
  | none => 0

/-- The frame record on the wires: `n`, `directionCount`, the frames in index order (R116, log 15). -/
def frameRecordWire (r : FrameRecord) : BitVec 372 :=
  BitVec.ofNat 4 r.n ++ BitVec.ofInt 8 r.directionCount ++
  frameEntry r 0 ++ frameEntry r 1 ++ frameEntry r 2 ++ frameEntry r 3 ++
  frameEntry r 4 ++ frameEntry r 5 ++ frameEntry r 6 ++ frameEntry r 7

/-- A bit sequence as a number, element `i` in bit `i` (R98). -/
def bitsNumber : List Bool → Nat
  | [] => 0
  | b :: rest => (if b then 1 else 0) + 2 * bitsNumber rest

/-- The value of a result as a number (R98). DESIGN CHOICE (log 15): a command that returns no value puts 0 on the value
wires, of which R98 says nothing then. -/
def valueNumber : ResultValue → Nat
  | .none => 0
  | .codeword c => c.toNat
  | .sym s => s.toNat
  | .bits b => bitsNumber b
  | .frames r => (frameRecordWire r).toNat

/-- A result record as a number: `status` in bits 2:0, "the rest is the value" (R98, log 15). -/
def resWire (r : Result) : Nat := (statusCode r.status).toNat + 8 * valueNumber r.value

end Sys2Proof.Machine
end

