-- ==== Sys2Proof/Machine/Flags.lean ====
section
/-! DEFINITION. The one-bit state of the CORE (10_state.md R33) and how it changes: the reported state of a port
(R23), the flip of a raw state (44_occupancy.md R212), the due announcement (R214), the flags of a slot
(43_assembler.md R190, R193) and the capture handshake (45_scheduler.md R240). The CORE has no condition codes. -/

namespace Sys2Proof.Machine

/-- `reportedState(p)`: the raw state if `reported`, else its opposite (R23). -/
def reportedState (pr : PortRegs) : Bool := if pr.reported then pr.state else !pr.state

/-- The occupancy word of a state: 0x0001 Occupied, 0x0000 Free (R111). -/
def occupancyWord (state : Bool) : Half := if state then 1 else 0

/-- A flip: the new raw state at once, the stamp, and `reported` toggled (R212). -/
def flipPort (now : Millis) (c : Bool) (pr : PortRegs) : PortRegs :=
  { pr with state := c, lastChangeTimestamp := now, reported := !pr.reported }

/-- A classification `c`: a flip if it differs from the raw state, nothing otherwise (R211, R212). -/
def classifyPort (now : Millis) (c : Bool) (pr : PortRegs) : PortRegs :=
  if c = pr.state then pr else flipPort now c pr

/-- The delay of the state being entered (R215). -/
def debounceDelay (cfg : ModuleConfig) (state : Bool) : Half :=
  if state then cfg.trackFreeToSetDelay else cfg.trackSetToFreeDelay

/-- A report is pending and its delay has elapsed (R214). -/
def announceDue (cfg : ModuleConfig) (now : Millis) (pr : PortRegs) : Bool :=
  !pr.reported && deadlineMet now pr.lastChangeTimestamp (debounceDelay cfg pr.state).toNat

/-- `reported <- 1` where an announcement is due (R214). -/
def announcePort (cfg : ModuleConfig) (now : Millis) (pr : PortRegs) : PortRegs :=
  if announceDue cfg now pr then { pr with reported := true } else pr

/-- A sighting of the address a slot already holds (R190). -/
def refreshSlot (dir : BitVec 2) (now : Millis) (sl : Slot) : Slot :=
  if sl.direction = dir then { sl with lastSeenTimestamp := now }
  else { sl with lastSeenTimestamp := now, direction := dir, reported := false }

/-- A new address in an empty slot (R190). -/
def claimSlot (addr : BitVec 14) (dir : BitVec 2) (now : Millis) : Slot :=
  { address := addr, direction := dir, lastSeenTimestamp := now, reported := false }

/-- The slot holds an address that has not been refreshed within the timeout (R193, R194). -/
def slotExpired (c : Config) (now : Millis) (sl : Slot) : Bool :=
  sl.address != 0 && deadlineMet now sl.lastSeenTimestamp c.railcomTimeoutMs.toNat

/-- `SLOTEXP` of one slot (R193); `lastSeenTimestamp` is left as it is. -/
def expireSlot (c : Config) (now : Millis) (sl : Slot) : Slot :=
  if slotExpired c now sl then { sl with address := 0, direction := 0, reported := false } else sl

/-- Some slot of the port has changed since its last notification (R195). -/
def slotsPending (sl : Vector Slot 4) : Bool :=
  !sl[0].reported || !sl[1].reported || !sl[2].reported || !sl[3].reported

/-- No capture is in flight or unconsumed: `(captureRunning, dataReady) = (0, 0)` (R97, R231, R240). -/
def captureIdle (sc : Scheduler) : Bool := !sc.captureRunning && !sc.dataReady

end Sys2Proof.Machine
end

