-- ==== Sys2Proof/Machine/Ops.lean ====
section
/-! DEFINITION. The named operations over memory, registers and output channels that the meanings share: BUF
(20_memory.md R60, R61, R68), per-port registers, emitting records and the result of a command (30_encoding.md R98,
R100), every `TX_PING` (46_responder.md R264). TAKING AN EXCEPTION has no operation here because the CORE has none:
60_exceptions.md R310 ("No trap mechanism"), R322 (no entry, no return); a condition is the status `finish` reports. -/

namespace Sys2Proof.Machine

/-! ### Memory -/

/-- What a byte that nothing has written reads as: DESIGN CHOICE 0 (log 6). -/
def Memory.unlisted : Byte := 0

/-- The byte at an address. -/
def Memory.read (m : Memory) (a : Nat) : Byte :=
  match m with
  | [] => Memory.unlisted
  | (x, v) :: rest => if x = a then v else Memory.read rest a

/-- Store a byte, keeping the canonical form: rising addresses, no listed byte equal to the unlisted one. -/
def Memory.write (m : Memory) (a : Nat) (b : Byte) : Memory :=
  match m with
  | [] => if b = Memory.unlisted then [] else [(a, b)]
  | (x, v) :: rest =>
    if a < x then (if b = Memory.unlisted then (x, v) :: rest else (a, b) :: (x, v) :: rest)
    else if a = x then (if b = Memory.unlisted then rest else (a, b) :: rest)
    else (x, v) :: Memory.write rest a b

/-- The canonical form: addresses strictly rising, no entry equal to what an unlisted address reads as. -/
abbrev Memory.wf (m : Memory) : Prop :=
  m.Pairwise (fun x y => x.1 < y.1) ∧ ∀ c ∈ m, c.2 ≠ Memory.unlisted

/-- Every listed address is below `n`. -/
abbrev Memory.below (m : Memory) (n : Nat) : Prop := ∀ c ∈ m, c.1 < n

/-- How many samples BUF holds: either capture fits (R61). -/
def bufLength (c : Config) : Nat := max c.winLen c.csLen

/-- BUF element `i`, its low byte at address `2*i` (log 7). -/
def Memory.readElement (m : Memory) (i : Nat) : Half := m.read (2 * i + 1) ++ m.read (2 * i)

/-- Store BUF element `i` (log 7). -/
def Memory.writeElement (m : Memory) (i : Nat) (v : Half) : Memory :=
  (m.write (2 * i) (v.extractLsb' 0 8)).write (2 * i + 1) (v.extractLsb' 8 8)

/-- The sampler's samples stored from element `i` up (R61, R363). -/
def Memory.writeSamples (m : Memory) (i : Nat) : List Half → Memory
  | [] => m
  | v :: rest => Memory.writeSamples (m.writeElement i v) (i + 1) rest

/-- `BufRead(i)` (R14): the read port has `SAMPLE_W` wires (R94), so `0 <= BUF[i] < 2^SAMPLE_W` (R61, log 8). -/
def bufRead (s : State) (i : Nat) : Nat := (s.buf.readElement i).toNat % 2 ^ s.config.sampleW

/-- `BUF[0 .. len-1]`. -/
def bufWindow (s : State) (len : Nat) : List Nat := (List.range len).map (bufRead s)

/-! ### Registers -/

/-- `port[p] <- pr`. -/
def State.setPort (s : State) (p : PortIdx) (pr : PortRegs) : State :=
  { s with ports := s.ports.set p.val pr p.isLt }

/-- `slot[p] <- sl`, the four slots of a port. -/
def State.setSlots (s : State) (p : PortIdx) (sl : Vector Slot 4) : State :=
  { s with slots := s.slots.set p.val sl p.isLt }

/-- `chan[p] <- ch`. -/
def State.setChan (s : State) (p : PortIdx) (ch : Chan) : State :=
  { s with chans := s.chans.set p.val ch p.isLt }

/-- The ports in ascending order. -/
def portList : List PortIdx := [0, 1, 2, 3, 4, 5, 6, 7]

/-! ### Output records -/

/-- Append output records in emission order (R15, R100). -/
def State.emit (s : State) (rs : List Output) : State := { s with out := s.out ++ rs }

/-- End a command: its one result record (R98). -/
def State.finish (s : State) (status : Status) (value : ResultValue) : State :=
  s.emit [.res { status := status, value := value }]

/-- The `TX_PING` record of the present state (R104, R264). -/
def pingRecord (s : State) : TxRecord :=
  .ping s.cfg.networkId s.sess.masterNetworkId s.config.moduleType s.sess.sessionId

/-- `emit TX_PING`, which sets the keep-alive timer (R264). -/
def emitPing (s : State) : State :=
  { s.emit [.tx (pingRecord s)] with resp := { lastPingTime := s.inp.now } }

/-- `emit PERSIST(record(cfg))` (R64, R102). -/
def emitPersist (s : State) : State := s.emit [.persist (encodeRecord s.cfg)]

/-- The `TX_ACCDATA` record for slots `lo`, `hi` of port `p` (R107). -/
def accDataRecord (s : State) (p : PortIdx) (type : Byte) (lo hi : SlotIdx) : TxRecord :=
  .accData s.cfg.networkId s.cfg.moduleAddress (portByte p) type
    (packSlot s.slots[p][lo]) (packSlot s.slots[p][hi])

/-- The `TX_PORT6` record of port `p` with the given state (R108, R111). -/
def port6Record (s : State) (p : PortIdx) (state : Bool) : TxRecord :=
  .port6 s.cfg.networkId s.cfg.moduleAddress (portByte p) port6Type (occupancyWord state)

end Sys2Proof.Machine
end

