-- ==== Sys2Proof/Machine/Boot.lean ====
section
/-! DEFINITION. BOOT (70_reset_and_hazards.md R352 to R355). -/

namespace Sys2Proof.Machine

/-- The registers `BOOT` writes from a configuration (R352, R353): `cfg`, the eight baselines, both thresholds, the
keep-alive stamp, `booted`. -/
def loadConfig (cfg : ModuleConfig) (s : State) : State :=
  { s with
    cfg := cfg
    ports := Vector.ofFn fun p => { s.ports[p] with voltageOffset := cfg.voltageOffset[p] }
    thr := thresholdsOf s.config cfg.trackSetCurrentThreshold
    resp := { lastPingTime := s.inp.now }
    booted := true }

/-- A first `BOOT` (R352): a valid stored record is loaded silently, else the first-boot configuration is made and
persisted (R354). -/
def bootUp (s : State) : State :=
  if storedRecordValid s.inp then loadConfig (bootConfig s.config s.inp) s
  else emitPersist (loadConfig (bootConfig s.config s.inp) s)

/-- `BOOT` (R352); IGNORED when booted already (R355(g)). -/
def execBoot (s : State) : Host.Outcome State Fault Refusal :=
  .next <|
    if s.booted then s.finish .ignored .none
    else (bootUp s).finish .done .none

end Sys2Proof.Machine
end

