-- ==== Sys2Proof/Machine/Pipeline.lean ====
section
/-! DEFINITION. The two pure functions of a sample window: the SampleDemodulator (40_demod.md R131) and the
UartByteExtractor (42_extractor.md R157). -/

namespace Sys2Proof.Machine

/-- One bit of `DEMOD`: 1 iff `|s - off| < thr` (R131, R132). -/
def demodBit (off thr s : Nat) : Bool := decide (absdiff s off < thr)

/-- `DEMOD` of a window (R131). -/
def demodWindow (off thr : Nat) (samples : List Nat) : List Bool := samples.map (demodBit off thr)

/-- `bit[i]`. -/
def bitAt (bits : List Bool) (i : Nat) : Bool := bits.getD i false

/-- `samples[i]`. -/
def sampleAt (samples : List Nat) (i : Nat) : Nat := samples.getD i 0

/-- The smallest `i` with `pos <= i <= L-2`, `bit[i] = 1` and `bit[i+1] = 0` (R157, R158). -/
def findStart (bits : List Bool) (pos : Nat) : Option Nat :=
  (List.range (bits.length - 1)).find? fun i => decide (pos ≤ i) && bitAt bits i && !bitAt bits (i + 1)

/-- The sample point of data bit `k` of a frame: `start + 6 + 4*k` (R163). -/
def samplePoint (start k : Nat) : Nat := start + 6 + 4 * k

/-- The codeword of a frame: the bit sampled at point `k` becomes bit `k` (R163). -/
def frameCode (bits : List Bool) (start : Nat) : Byte :=
  (List.range 8).foldl
    (fun code k => if bitAt bits (samplePoint start k) then code ||| (1#8 <<< k) else code) 0

/-- What data bit `k` adds to `directionCount`: only a 0 bit counts, +1 above the baseline, -1 below (R167). -/
def directionStep (bits : List Bool) (samples : List Nat) (off start k : Nat) : Int :=
  if bitAt bits (samplePoint start k) then 0
  else if off < sampleAt samples (samplePoint start k) then 1
  else if sampleAt samples (samplePoint start k) < off then -1
  else 0

/-- What a frame adds to `directionCount` (R167). -/
def frameDirection (bits : List Bool) (samples : List Nat) (off start : Nat) : Int :=
  (List.range 8).foldl (fun dc k => dc + directionStep bits samples off start k) 0

/-- The frame with a given start tick (R157, R164, R165). -/
def frameAt (c : Config) (bits : List Bool) (start : Nat) : Frame :=
  { start := start, stop := start + 40, code := frameCode bits start, sym := decRom c (frameCode bits start) }

/-- A record with one more frame in front and its direction steps added (R157). -/
def prependFrame (d : Int) (f : Frame) (r : FrameRecord) : FrameRecord :=
  { directionCount := d + r.directionCount, frames := f :: r.frames }

/-- The scan loop: at most `fuel` more frames, looking from `pos` (R157 to R162). A frame is taken iff its last
sample point `start + 34` is below the window length; the scan resumes at `start + 39`. -/
def scanFrames (c : Config) (bits : List Bool) (samples : List Nat) (off : Nat) : Nat → Nat → FrameRecord
  | 0, _ => { directionCount := 0, frames := [] }
  | fuel + 1, pos =>
    match findStart bits pos with
    | none => { directionCount := 0, frames := [] }
    | some i =>
      if i + 1 + 34 < bits.length then
        prependFrame (frameDirection bits samples off (i + 1)) (frameAt c bits (i + 1))
          (scanFrames c bits samples off fuel (i + 1 + 39))
      else { directionCount := 0, frames := [] }

/-- `EXTRACT` of a demodulated window: at most 8 frames, from tick 0 (R157, R160, R161). -/
def extractWindow (c : Config) (bits : List Bool) (samples : List Nat) (off : Nat) : FrameRecord :=
  scanFrames c bits samples off 8 0

/-- `DEMOD` then `EXTRACT` of `BUF[0 .. WIN_LEN-1]` with one baseline and threshold (R157, R171). -/
def extractBuffer (s : State) (off thr : Nat) : FrameRecord :=
  extractWindow s.config (demodWindow off thr (bufWindow s s.config.winLen)) (bufWindow s s.config.winLen) off

end Sys2Proof.Machine
end

