-- ==== Sys2Proof/Machine/Function.lean ====
section
/-! DEFINITION. The function commands DEMOD, ENC48, DEC84, EXTRACT (30_encoding.md R97): pure, they write no register,
their result comes back on `res`. -/

namespace Sys2Proof.Machine

/-- `DEMOD` (R131): the bits of the window, or IGNORED while a capture is in flight or unconsumed. -/
def execDemod (off : Half) (thr : BitVec 17) (s : State) : Host.Outcome State Fault Refusal :=
  .next <|
    if captureIdle s.sched then
      s.finish .done (.bits (demodWindow off.toNat thr.toNat (bufWindow s s.config.winLen)))
    else s.finish .ignored .none

/-- `ENC48` (R141): the codeword, or IGNORED with value 0x00 for a code above 18. -/
def execEnc48 (sym : Symbol) (s : State) : Host.Outcome State Fault Refusal :=
  .next <|
    match encRom s.config sym with
    | some b => s.finish .done (.codeword b)
    | none => s.finish .ignored (.codeword 0x00)

/-- `DEC84` (R142): the symbol, INVALID for a byte that is no codeword; always DONE. -/
def execDec84 (byte : Byte) (s : State) : Host.Outcome State Fault Refusal :=
  .next <| s.finish .done (.sym (decRom s.config byte))

/-- `EXTRACT` (R157): the frame record of the window, or IGNORED while a capture is in flight or unconsumed. -/
def execExtract (off : Half) (thr : BitVec 17) (s : State) : Host.Outcome State Fault Refusal :=
  .next <|
    if captureIdle s.sched then s.finish .done (.frames (extractBuffer s off.toNat thr.toNat))
    else s.finish .ignored .none

end Sys2Proof.Machine
end

