-- ==== Sys2Proof/Machine/Reserved.lean ====
section
/-! DEFINITION. The reserved op codes (30_encoding.md R118): no state change, no output, status RESERVED. -/

namespace Sys2Proof.Machine

/-- What every reserved op code does (R118): its result record and nothing else. -/
def reservedOp (s : State) : State := s.finish .reserved .none

/-- Op code 0x00 (R118); its payload is ignored. -/
def execReserved00 (_payload : BitVec 64) (s : State) : Host.Outcome State Fault Refusal :=
  .next (reservedOp s)

/-- Op code 0x05 (R118); its payload is ignored. -/
def execReserved05 (_payload : BitVec 64) (s : State) : Host.Outcome State Fault Refusal :=
  .next (reservedOp s)

/-- Op code 0x06 (R118); its payload is ignored. -/
def execReserved06 (_payload : BitVec 64) (s : State) : Host.Outcome State Fault Refusal :=
  .next (reservedOp s)

/-- Op code 0x07 (R118); its payload is ignored. -/
def execReserved07 (_payload : BitVec 64) (s : State) : Host.Outcome State Fault Refusal :=
  .next (reservedOp s)

/-- Op code 0x0D (R118); its payload is ignored. -/
def execReserved0D (_payload : BitVec 64) (s : State) : Host.Outcome State Fault Refusal :=
  .next (reservedOp s)

/-- Op code 0x0E (R118); its payload is ignored. -/
def execReserved0E (_payload : BitVec 64) (s : State) : Host.Outcome State Fault Refusal :=
  .next (reservedOp s)

/-- Op code 0x0F (R118); its payload is ignored. -/
def execReserved0F (_payload : BitVec 64) (s : State) : Host.Outcome State Fault Refusal :=
  .next (reservedOp s)

/-- Op code 0x19 (R118); its payload is ignored. -/
def execReserved19 (_payload : BitVec 64) (s : State) : Host.Outcome State Fault Refusal :=
  .next (reservedOp s)

/-- Op code 0x1A (R118); its payload is ignored. -/
def execReserved1A (_payload : BitVec 64) (s : State) : Host.Outcome State Fault Refusal :=
  .next (reservedOp s)

/-- Op code 0x1B (R118); its payload is ignored. -/
def execReserved1B (_payload : BitVec 64) (s : State) : Host.Outcome State Fault Refusal :=
  .next (reservedOp s)

/-- Op code 0x1C (R118); its payload is ignored. -/
def execReserved1C (_payload : BitVec 64) (s : State) : Host.Outcome State Fault Refusal :=
  .next (reservedOp s)

/-- Op code 0x1D (R118); its payload is ignored. -/
def execReserved1D (_payload : BitVec 64) (s : State) : Host.Outcome State Fault Refusal :=
  .next (reservedOp s)

/-- Op code 0x1E (R118); its payload is ignored. -/
def execReserved1E (_payload : BitVec 64) (s : State) : Host.Outcome State Fault Refusal :=
  .next (reservedOp s)

/-- Op code 0x1F (R118); its payload is ignored. -/
def execReserved1F (_payload : BitVec 64) (s : State) : Host.Outcome State Fault Refusal :=
  .next (reservedOp s)

end Sys2Proof.Machine
end

