-- ==== Sys2Proof/Machine/Assembler.lean ====
section
/-! DEFINITION. The AddressAssembler (43_assembler.md): PAIR, SLOTUPD, SLOTEXP, ADDRREPORT. -/

namespace Sys2Proof.Machine

/-- The slots in ascending order. -/
def slotList : List SlotIdx := [0, 1, 2, 3]

/-- The lowest slot that holds an address; with address 0, the first empty slot (R190, R192). -/
def findSlot (sl : Vector Slot 4) (addr : BitVec 14) : Option SlotIdx :=
  slotList.find? fun k => sl[k].address == addr

/-- `SLOTUPD` on the four slots of a port: match and refresh, else claim the first empty slot, else drop (R190,
R191). -/
def updateSlots (sl : Vector Slot 4) (addr : BitVec 14) (dir : BitVec 2) (now : Millis) : Vector Slot 4 :=
  match findSlot sl addr with
  | some k => sl.set k.val (refreshSlot dir now sl[k]) k.isLt
  | none =>
    match findSlot sl 0 with
    | some k => sl.set k.val (claimSlot addr dir now) k.isLt
    | none => sl

/-- `SLOTUPD(p, addr, dir, now)` (R190). -/
def slotupd (p : PortIdx) (addr : BitVec 14) (dir : BitVec 2) (s : State) : State :=
  s.setSlots p (updateSlots s.slots[p] addr dir s.inp.now)

/-- The channel-1 pair of a record: its first two frames, if both are data symbols, the gap between them is below 10
ticks, and no valid third frame starts within 10 ticks of the second (R185, R186). -/
def acceptedPair (r : FrameRecord) : Option (Frame × Frame) :=
  match r.frames with
  | f0 :: f1 :: rest =>
    if isData f0.sym && isData f1.sym && decide (f1.start - f0.stop < 10) &&
        (match rest with
         | f2 :: _ => !(isValid f2.sym && decide (f2.start - f1.stop < 10))
         | [] => true)
    then some (f0, f1) else none
  | _ => none

/-- The address that the previous pair `prev` and the present one make: only ids 2 then 1, or 1 then 2 (R187). -/
def pairedAddress (prev cur : Chan) : Option (BitVec 14) :=
  if prev.lastSymbolId = 2 ∧ cur.lastSymbolId = 1 then
    some (assembleAddress prev.lastSymbolValue cur.lastSymbolValue)
  else if prev.lastSymbolId = 1 ∧ cur.lastSymbolId = 2 then
    some (assembleAddress cur.lastSymbolValue prev.lastSymbolValue)
  else none

/-- The `(id, value)` of a channel-1 pair, as `chan[p]` will hold it (R182, R184). -/
def chanOfPair (c : Config) (f0 f1 : Frame) : Chan :=
  { lastSymbolId := (pairFieldsOf c f0.sym f1.sym).1, lastSymbolValue := (pairFieldsOf c f0.sym f1.sym).2 }

/-- `PAIR(p, rec, now)` (R184): a rejected window resets `chan[p]`; an accepted one is carried, and an address it
completes, unless 0 or 255 (R188), goes to `SLOTUPD`. -/
def pair (p : PortIdx) (r : FrameRecord) (s : State) : State :=
  match acceptedPair r with
  | none => s.setChan p Chan.reset
  | some (f0, f1) =>
    match pairedAddress s.chans[p] (chanOfPair s.config f0 f1) with
    | none => s.setChan p (chanOfPair s.config f0 f1)
    | some addr =>
      if addr = 0 ∨ addr = 255 then s.setChan p (chanOfPair s.config f0 f1)
      else slotupd p addr (directionOf r.directionCount) (s.setChan p (chanOfPair s.config f0 f1))

/-- `SLOTEXP(now)` (R193): every slot of every port. -/
def slotexp (s : State) : State :=
  { s with slots := Vector.ofFn fun p => Vector.ofFn fun k => expireSlot s.config s.inp.now s.slots[p][k] }

/-- The notification of one port: the pair of records for all four slots, if one has changed (R195). -/
def addrReportRecords (s : State) (p : PortIdx) : List Output :=
  if slotsPending s.slots[p] then
    [.tx (accDataRecord s p accTypeA 0 1), .tx (accDataRecord s p accTypeB 2 3)]
  else []

/-- The four slots of a port after its notification: all reported (R195). -/
def reportedSlots (sl : Vector Slot 4) : Vector Slot 4 :=
  if slotsPending sl then Vector.ofFn fun k => { sl[k] with reported := true } else sl

/-- `ADDRREPORT()` (R195): every port, in ascending order. -/
def addrreport (s : State) : State :=
  { s.emit (portList.flatMap (addrReportRecords s)) with
    slots := Vector.ofFn fun p => reportedSlots s.slots[p] }

/-- The micro-operation PAIR. -/
def execPair (p : PortIdx) (r : FrameRecord) (s : State) : Host.Outcome State Fault Refusal :=
  .next (pair p r s)

/-- The micro-operation SLOTUPD. -/
def execSlotupd (p : PortIdx) (addr : BitVec 14) (dir : BitVec 2) (s : State) :
    Host.Outcome State Fault Refusal :=
  .next (slotupd p addr dir s)

/-- The micro-operation SLOTEXP. -/
def execSlotexp (s : State) : Host.Outcome State Fault Refusal := .next (slotexp s)

/-- The micro-operation ADDRREPORT. -/
def execAddrreport (s : State) : Host.Outcome State Fault Refusal := .next (addrreport s)

end Sys2Proof.Machine
end

