-- ==== Sys2Proof/Machine/Occupancy.lean ====
section
/-! DEFINITION. The OccupancyDetector (44_occupancy.md): OCCACC, OCCDEB. -/

namespace Sys2Proof.Machine

/-- The classification of a full accumulator: Occupied iff the floor of the average is above `trackSetVoltage`
(R211, R213). DESIGN CHOICE (log 22): so also with a saturated `trackSetVoltage`, which R218(b) says makes every port Free;
a baseline above full scale (R353) can give a greater average. -/
def occupied (c : Config) (trackSet sum : Nat) : Bool := decide (trackSet < sum / c.occN)

/-- One sample of `OCCACC` (R211): accumulate, and at `OCC_N` samples classify and start again. -/
def accumulateSample (c : Config) (trackSet : Nat) (now : Millis) (pr : PortRegs) (smp : Nat) : PortRegs :=
  if pr.accCount + 1 = c.occN then
    classifyPort now (occupied c trackSet (pr.accSum + absdiff smp pr.voltageOffset.toNat))
      { pr with accSum := 0, accCount := 0 }
  else
    { pr with accSum := pr.accSum + absdiff smp pr.voltageOffset.toNat, accCount := pr.accCount + 1 }

/-- `OCCACC(p, now)` over `BUF[0 .. CS_LEN-1]` (R211). -/
def occacc (p : PortIdx) (s : State) : State :=
  s.setPort p
    ((bufWindow s s.config.csLen).foldl
      (accumulateSample s.config s.thr.trackSetVoltage.toNat s.inp.now) s.ports[p])

/-- The announcement of one port, if due: the raw state as an occupancy word (R214). -/
def announceRecords (s : State) (p : PortIdx) : List Output :=
  if announceDue s.cfg s.inp.now s.ports[p] then [.tx (port6Record s p s.ports[p].state)] else []

/-- `OCCDEB(now)` (R214): every port, in ascending order. -/
def occdeb (s : State) : State :=
  { s.emit (portList.flatMap (announceRecords s)) with
    ports := Vector.ofFn fun p => announcePort s.cfg s.inp.now s.ports[p] }

/-- The micro-operation OCCACC. -/
def execOccacc (p : PortIdx) (s : State) : Host.Outcome State Fault Refusal := .next (occacc p s)

/-- The micro-operation OCCDEB. -/
def execOccdeb (s : State) : Host.Outcome State Fault Refusal := .next (occdeb s)

end Sys2Proof.Machine
end

