-- ==== Sys2Proof/Machine/Responder.lean ====
section
/-! DEFINITION. The ProtocolResponder (46_responder.md): the message commands under their common prologue, the
address-programming window, the keep-alive and the network-id collision. -/

namespace Sys2Proof.Machine

/-- `COLLISION()` (R266): a new network id, the record persisted, a fresh ping. -/
def collide (s : State) : State :=
  emitPing (emitPersist { s with cfg := { s.cfg with networkId := drawNetworkId s.config s.inp.rand } })

/-- The common prologue of every message command (R261): IGNORED before `BOOT`; the collision rule if the sender
is this module's own id; else the handler. -/
def withPrologue (srcNid : Half) (handler : State → State) (s : State) : State :=
  if s.booted = false then s.finish .ignored .none
  else if srcNid = s.cfg.networkId then (collide s).finish .collision .none
  else handler s

/-- Handler of a ping request (R268). -/
def handlePingreq (s : State) : State := (emitPing s).finish .handled .none

/-- Adopt a master (R270). -/
def adoptMaster (s : State) (masterUid : Half) : State :=
  { s with sess := { hasMaster := true, masterNetworkId := masterUid, sessionId := 0 } }

/-- A ping names a master other than the one tracked (R270, R271(c)). -/
def masterDiffers (s : State) (masterUid : Half) : Bool :=
  !s.sess.hasMaster || masterUid != s.sess.masterNetworkId

/-- Handler of an observed ping (R270). -/
def handlePing (masterUid type : Half) (s : State) : State :=
  if pingQualifies type && masterDiffers s masterUid then
    (emitPing (adoptMaster s masterUid)).finish .handled .none
  else s.finish .unhandled .none

/-- Handler of a module-info query (R274). -/
def handleInfoGet (infoTag : Half) (s : State) : State :=
  match infoValue s.config s.cfg infoTag with
  | some v => (s.emit [.tx (.infoAck s.cfg.networkId infoTag v)]).finish .handled .none
  | none => s.finish .unhandled .none

/-- Handler of a config get (R277, R278). -/
def handleCfgGet (tag : BitVec 32) (s : State) : State :=
  match selectField tag with
  | some f => (s.emit [.tx (.cfgAck s.cfg.networkId tag (readField s.cfg f))]).finish .handled .none
  | none => s.finish .unhandled .none

/-- `cfg.f <- value`, and both thresholds from the value if `f` is the current rating (R280). -/
def setField (s : State) (f : CfgField) (value : Half) : State :=
  { s with
    cfg := writeField s.cfg f value
    thr := if f = .trackSetCurrentThreshold then thresholdsOf s.config value else s.thr }

/-- Handler of a config set (R280, R278): write, persist, echo the value as received. -/
def handleCfgSet (tag : BitVec 32) (value : Half) (s : State) : State :=
  match selectField tag with
  | some f =>
    ((emitPersist (setField s f value)).emit [.tx (.cfgAck s.cfg.networkId tag value)]).finish .handled .none
  | none => s.finish .unhandled .none

/-- Handler of an accessory-data query (R283). -/
def handleAccdataGet (id : Half) (port type : Byte) (s : State) : State :=
  if idMatch s.config s.cfg id then
    match portOf port, accSlots type with
    | some p, some (lo, hi) => (s.emit [.tx (accDataRecord s p type lo hi)]).finish .handled .none
    | _, _ => s.finish .unhandled .none
  else s.finish .unhandled .none

/-- Handler of an occupancy query (R285): the reported state, not the raw one. -/
def handlePort6Get (id : Half) (port type : Byte) (s : State) : State :=
  if idMatch s.config s.cfg id && type == port6Type then
    match portOf port with
    | some p => (s.emit [.tx (port6Record s p (reportedState s.ports[p]))]).finish .handled .none
    | none => s.finish .unhandled .none
  else s.finish .unhandled .none

/-- Handler of an address set (R290): accepted only while the programming window is open, which it closes. -/
def handleSetaddr (newAddress : Half) (s : State) : State :=
  if s.prog.active then
    (emitPersist
      { s with
        cfg := { s.cfg with moduleAddress := newAddress }
        prog := { s.prog with active := false } }).finish .handled .none
  else s.finish .unhandled .none

/-- `PROGEXP(now)` (R291). -/
def expireProg (s : State) : State :=
  if s.prog.active && deadlineMet s.inp.now s.prog.openedAt s.config.progWindowMs.toNat then
    { s with prog := { s.prog with active := false } }
  else s

/-- `KEEPALIVE(now)` (R296). -/
def keepAlive (s : State) : State :=
  if deadlineMet s.inp.now s.resp.lastPingTime s.config.pingIntervalMs.toNat then emitPing s else s

/-- `RX_PINGREQ` (R268). -/
def execRxPingreq (srcNid : Half) (s : State) : Host.Outcome State Fault Refusal :=
  .next (withPrologue srcNid handlePingreq s)

/-- `RX_PING` (R270); the incoming `sessionId` is not used (R271(d)). -/
def execRxPing (srcNid masterUid type _sessionId : Half) (s : State) : Host.Outcome State Fault Refusal :=
  .next (withPrologue srcNid (handlePing masterUid type) s)

/-- `RX_INFO_GET` (R274). -/
def execRxInfoGet (srcNid infoTag : Half) (s : State) : Host.Outcome State Fault Refusal :=
  .next (withPrologue srcNid (handleInfoGet infoTag) s)

/-- `RX_CFG_GET` (R277). -/
def execRxCfgGet (srcNid : Half) (tag : BitVec 32) (s : State) : Host.Outcome State Fault Refusal :=
  .next (withPrologue srcNid (handleCfgGet tag) s)

/-- `RX_CFG_SET` (R280). -/
def execRxCfgSet (srcNid : Half) (tag : BitVec 32) (value : Half) (s : State) :
    Host.Outcome State Fault Refusal :=
  .next (withPrologue srcNid (handleCfgSet tag value) s)

/-- `RX_ACCDATA_GET` (R283). -/
def execRxAccdataGet (srcNid id : Half) (port type : Byte) (s : State) : Host.Outcome State Fault Refusal :=
  .next (withPrologue srcNid (handleAccdataGet id port type) s)

/-- `RX_PORT6_GET` (R285). -/
def execRxPort6Get (srcNid id : Half) (port type : Byte) (s : State) : Host.Outcome State Fault Refusal :=
  .next (withPrologue srcNid (handlePort6Get id port type) s)

/-- `RX_SETADDR` (R290). -/
def execRxSetaddr (srcNid newAddress : Half) (s : State) : Host.Outcome State Fault Refusal :=
  .next (withPrologue srcNid (handleSetaddr newAddress) s)

/-- `RX_OTHER` (R292): UNHANDLED after the prologue. -/
def execRxOther (srcNid : Half) (s : State) : Host.Outcome State Fault Refusal :=
  .next (withPrologue srcNid (fun t => t.finish .unhandled .none) s)

/-- `PROGOPEN` (R288): opens the programming window, or restarts its time. -/
def execProgopen (s : State) : Host.Outcome State Fault Refusal :=
  .next <|
    if s.booted = false then s.finish .ignored .none
    else { s with prog := { active := true, openedAt := s.inp.now } }.finish .done .none

/-- The micro-operation PROGEXP. -/
def execProgexp (s : State) : Host.Outcome State Fault Refusal := .next (expireProg s)

/-- The micro-operation KEEPALIVE. -/
def execKeepalive (s : State) : Host.Outcome State Fault Refusal := .next (keepAlive s)

/-- The micro-operation COLLISION. -/
def execCollision (s : State) : Host.Outcome State Fault Refusal := .next (collide s)

end Sys2Proof.Machine
end

