-- ==== Sys2Proof/Machine/Sched.lean ====
section
/-! DEFINITION. The PortScheduler (45_scheduler.md): TRIGGER, CAPDONE, TICK. -/

namespace Sys2Proof.Machine

/-- The scheduler after a decode capture is started (R231, R233). -/
def startRailcom (c : Config) (sc : Scheduler) : Scheduler :=
  if sc.rcCount + 1 = c.maxConsec then
    { sc with rcCount := 0, rcCursor := sc.rcCursor + 1, capPort := sc.rcCursor, capPurpose := .railcom,
              captureRunning := true }
  else
    { sc with rcCount := sc.rcCount + 1, capPort := sc.rcCursor, capPurpose := .railcom,
              captureRunning := true }

/-- The scheduler after a current-sense capture is started (R231, R232). -/
def startCurrent (sc : Scheduler) : Scheduler :=
  { sc with csCursor := sc.csCursor + 1, capPort := sc.csCursor, capPurpose := .current, captureRunning := true }

/-- The scheduler after an accepted `TRIGGER` of a kind (R231). -/
def startCapture (c : Config) (kind : Boundary) (sc : Scheduler) : Scheduler :=
  match kind with
  | .cutout => startRailcom c sc
  | .idle => startCurrent sc

/-- The capture an accepted `TRIGGER` starts: the state with the scheduler advanced and the `ARM` record emitted
(R101, R231). -/
def armCapture (kind : Boundary) (s : State) : State :=
  { s with sched := startCapture s.config kind s.sched }.emit
    [.arm (startCapture s.config kind s.sched).capPort (startCapture s.config kind s.sched).capPurpose]

/-- `TRIGGER` (R231). -/
def execTrigger (kind : Boundary) (s : State) : Host.Outcome State Fault Refusal :=
  .next <|
    if s.booted && captureIdle s.sched then (armCapture kind s).finish .done .none
    else s.finish .ignored .none

/-- `CAPDONE`, the capture-complete interrupt (R236, R320). -/
def execCapdone (s : State) : Host.Outcome State Fault Refusal :=
  .next <|
    if s.booted && s.sched.captureRunning then
      { s with sched := { s.sched with captureRunning := false, dataReady := true } }.finish .done .none
    else s.finish .ignored .none

/-- The analysis of the captured buffer (R238): decode and pair, or accumulate. -/
def analyseCapture (s : State) : State :=
  match s.sched.capPurpose with
  | .railcom =>
    pair s.sched.capPort
      (extractBuffer s s.ports[s.sched.capPort].voltageOffset.toNat s.thr.thresholdVoltage.toNat) s
  | .current => occacc s.sched.capPort s

/-- Phase T1 of `TICK` (R238): analyse a finished buffer, then release it. DESIGN CHOICE (log 20): BUF keeps its samples,
which the spec leaves unspecified from here on (70_reset_and_hazards.md R356). -/
def consumeCapture (s : State) : State :=
  if s.sched.dataReady then
    { analyseCapture s with sched := { s.sched with dataReady := false } }
  else s

/-- The phases T1 to T6 of `TICK`, in order (R237). -/
def tickPhases (s : State) : State :=
  keepAlive (expireProg (addrreport (occdeb (slotexp (consumeCapture s)))))

/-- `TICK` (R237). -/
def execTick (s : State) : Host.Outcome State Fault Refusal :=
  .next <|
    if s.booted = false then s.finish .ignored .none
    else (tickPhases s).finish .done .none

end Sys2Proof.Machine
end

