-- ==== Sys2Proof/Machine/Dispatch.lean ====
section
/-! DEFINITION. The dispatch: one arm per operation of spec/opcode_table.json. -/

namespace Sys2Proof.Machine

def exec (i : Instr) (s : State) : Host.Outcome State Fault Refusal :=
  match i with
  | .demod off thr => Sys2Proof.Machine.execDemod off thr s
  | .enc48 sym => Sys2Proof.Machine.execEnc48 sym s
  | .dec84 byte => Sys2Proof.Machine.execDec84 byte s
  | .extract off thr => Sys2Proof.Machine.execExtract off thr s
  | .trigger kind => Sys2Proof.Machine.execTrigger kind s
  | .capdone => Sys2Proof.Machine.execCapdone s
  | .tick => Sys2Proof.Machine.execTick s
  | .progopen => Sys2Proof.Machine.execProgopen s
  | .boot => Sys2Proof.Machine.execBoot s
  | .rxPingreq srcNid => Sys2Proof.Machine.execRxPingreq srcNid s
  | .rxPing srcNid masterUid type sessionId => Sys2Proof.Machine.execRxPing srcNid masterUid type sessionId s
  | .rxInfoGet srcNid infoTag => Sys2Proof.Machine.execRxInfoGet srcNid infoTag s
  | .rxCfgGet srcNid tag => Sys2Proof.Machine.execRxCfgGet srcNid tag s
  | .rxCfgSet srcNid tag value => Sys2Proof.Machine.execRxCfgSet srcNid tag value s
  | .rxAccdataGet srcNid id port type => Sys2Proof.Machine.execRxAccdataGet srcNid id port type s
  | .rxPort6Get srcNid id port type => Sys2Proof.Machine.execRxPort6Get srcNid id port type s
  | .rxSetaddr srcNid newAddress => Sys2Proof.Machine.execRxSetaddr srcNid newAddress s
  | .rxOther srcNid => Sys2Proof.Machine.execRxOther srcNid s
  | .pair p r => Sys2Proof.Machine.execPair p r s
  | .slotupd p addr dir => Sys2Proof.Machine.execSlotupd p addr dir s
  | .slotexp => Sys2Proof.Machine.execSlotexp s
  | .addrreport => Sys2Proof.Machine.execAddrreport s
  | .occacc p => Sys2Proof.Machine.execOccacc p s
  | .occdeb => Sys2Proof.Machine.execOccdeb s
  | .progexp => Sys2Proof.Machine.execProgexp s
  | .keepalive => Sys2Proof.Machine.execKeepalive s
  | .collision => Sys2Proof.Machine.execCollision s
  | .reserved00 payload => Sys2Proof.Machine.execReserved00 payload s
  | .reserved05 payload => Sys2Proof.Machine.execReserved05 payload s
  | .reserved06 payload => Sys2Proof.Machine.execReserved06 payload s
  | .reserved07 payload => Sys2Proof.Machine.execReserved07 payload s
  | .reserved0D payload => Sys2Proof.Machine.execReserved0D payload s
  | .reserved0E payload => Sys2Proof.Machine.execReserved0E payload s
  | .reserved0F payload => Sys2Proof.Machine.execReserved0F payload s
  | .reserved19 payload => Sys2Proof.Machine.execReserved19 payload s
  | .reserved1A payload => Sys2Proof.Machine.execReserved1A payload s
  | .reserved1B payload => Sys2Proof.Machine.execReserved1B payload s
  | .reserved1C payload => Sys2Proof.Machine.execReserved1C payload s
  | .reserved1D payload => Sys2Proof.Machine.execReserved1D payload s
  | .reserved1E payload => Sys2Proof.Machine.execReserved1E payload s
  | .reserved1F payload => Sys2Proof.Machine.execReserved1F payload s

end Sys2Proof.Machine
end

