-- ==== Sys2Proof/Machine/Interface.lean ====
section
/-! DEFINITION. What the host does at the ports of the CORE (30_encoding.md R91 to R96, 70_reset_and_hazards.md R350,
R363, R367): accepting a command, filling BUF, taking an output record, asserting `rst`. -/

namespace Sys2Proof.Machine

/-- The CORE accepts a command: every record of the operation before has been taken (R92, R367, log 12). -/
def commandReady (s : State) : Bool := s.out.isEmpty

/-- The state in which the accepted command runs: the input ports sampled (R93), the event gone. -/
def acceptCommand (inp : Inputs) (rest : List HostEvent) (s : State) : State :=
  { s with inp := inp, host := rest }

/-- The channel of an output record (R96). -/
def channelOf : Output → Channel
  | .arm _ _ => .arm
  | .persist _ => .persist
  | .tx _ => .tx
  | .res _ => .res

/-- The host takes the first waiting record of a channel; nothing moves on an empty channel (R96). -/
def takeRecord (ch : Channel) (out : List Output) : List Output := out.eraseP fun o => decide (channelOf o = ch)

/-- What a fill stores from element 0 up: the samples it supplies; a free value in every element if they are more than
BUF holds, which breaks R363 (log 18). -/
def storedSamples (c : Config) (m : Memory) (samples : List Half) : List Half :=
  if samples.length ≤ bufLength c then samples else (List.range (bufLength c)).map (Config.overfill m samples)

/-- The sampler fills BUF from element 0 (R61, R363). Whatever it supplies, no register of the CORE changes (R362).
DESIGN CHOICE (log 18): a fill with fewer samples than BUF has elements leaves the others as they were. -/
def fillBuffer (samples : List Half) (s : State) : State :=
  { s with buf := s.buf.writeSamples 0 (storedSamples s.config s.buf samples) }

/-- `rst` (R91, R350, R37): every register at its reset value, the operation under way and every record not yet taken
dropped. BUF and the parameters are no registers and stay (log 17). -/
def assertReset (s : State) : State := { State.resetWith s.config with buf := s.buf, host := s.host }

/-- A command presented before all else, with the input ports as they were last sampled and no record waiting, so
that the next step accepts it. -/
def presentWord (w : CmdWord) (s : State) : State :=
  { s with host := .command w s.inp :: s.host, out := [] }

end Sys2Proof.Machine
end

