-- ==== Sys2Proof/Machine/Step.lean ====
section
/-! DEFINITION. One step: the next thing the host does at the ports of the CORE; for an accepted command, the whole
operation, atomically (45_scheduler.md R230). -/

namespace Sys2Proof.Machine

/-- One step. With nothing presented the CORE is idle and its state is held (60_exceptions.md R338). A command that
meets a waiting output record is not accepted and stays presented (70_reset_and_hazards.md R367). DESIGN CHOICE (log 19):
it keeps its place at the head of `host`, so an event listed behind it does not overtake it; a host that takes the records
while the command waits is a list with those `take` events in front of it. -/
def step (s : State) : Host.Outcome State Fault Refusal :=
  match s.host with
  | [] => .next s
  | .command w inp :: rest => if commandReady s then exec (decode w) (acceptCommand inp rest s) else .next s
  | .fill samples :: rest => .next (fillBuffer samples { s with host := rest })
  | .take ch :: rest => .next { s with out := takeRecord ch s.out, host := rest }
  | .rst :: rest => .next (assertReset { s with host := rest })

/-- `s` with the table word `w` presented on the command port, so that the very next step accepts and runs it
(log 1). A command has one fixed length, so `nbits` does not matter. -/
def State.withFetchWord (s : State) (_nbits w : Nat) : State := presentWord (wordOfNat w) s

end Sys2Proof.Machine
end

