-- ==== Sys2Proof/Safety.lean ====
section
/-! DEFINITION. What every reachable state of the CORE satisfies, in the terms the statements use: the invariants the
spec names (10_state.md R22, R23, R25, R28, R33, R36; 44_occupancy.md R216(d); 46_responder.md R271(d)). -/

namespace Sys2Proof.Machine

/-- `0 <= accCount < OCC_N` (R22, R216(d)), and the sum is one of that many absolute deviations (R213). -/
abbrev PortInv (c : Config) (pr : PortRegs) : Prop :=
  pr.accCount < c.occN ∧ pr.accSum ≤ pr.accCount * 65535

/-- Direction 3 and address 255 never occur, and an empty slot has direction 0 (R24, R25(b), (c)). -/
abbrev SlotInv (sl : Slot) : Prop :=
  sl.direction ≠ 3 ∧ sl.address ≠ 255 ∧ (sl.address = 0 → sl.direction = 0)

/-- Two non-empty slots of one port never hold the same address (R25(a)). -/
abbrev SlotsDistinct (sl : Vector Slot 4) : Prop :=
  ∀ j k : SlotIdx, j ≠ k → sl[j].address ≠ 0 → sl[j].address ≠ sl[k].address

/-- `(captureRunning, dataReady) = (1,1)` is unreachable (R33, R240), and `0 <= rcCount < MAX_CONSEC` (R32). -/
abbrev SchedInv (c : Config) (sc : Scheduler) : Prop :=
  ¬ (sc.captureRunning = true ∧ sc.dataReady = true) ∧ sc.rcCount < c.maxConsec

/-- `sessionId` is 0 for ever (R271(d)); with no master, `masterNetworkId` is the reset value 0 (R265). -/
abbrev SessionInv (se : Session) : Prop :=
  se.sessionId = 0 ∧ (se.hasMaster = false → se.masterNetworkId = 0)

/-- BUF is in canonical form and lists no address outside the buffer. -/
abbrev BufferInv (c : Config) (m : Memory) : Prop := m.wf ∧ m.below (2 * bufLength c)

/-- After `BOOT`: `thr` is the function of `cfg` (R36), the network id is no sentinel (R28), the baselines are
those of `cfg` (R353, R331). -/
abbrev BootedInv (s : State) : Prop :=
  s.thr = thresholdsOf s.config s.cfg.trackSetCurrentThreshold ∧
  s.cfg.networkId ≠ 0x0000 ∧ s.cfg.networkId ≠ 0xFFFF ∧
  ∀ p : PortIdx, s.ports[p].voltageOffset = s.cfg.voltageOffset[p]

/-- Before `BOOT` no capture is outstanding (R351). -/
abbrev UnbootedInv (s : State) : Prop :=
  s.sched.captureRunning = false ∧ s.sched.dataReady = false

/-- The invariant of the CORE. -/
abbrev State.Inv (s : State) : Prop :=
  s.config.wf ∧
  (∀ p : PortIdx, PortInv s.config s.ports[p]) ∧
  (∀ (p : PortIdx) (k : SlotIdx), SlotInv s.slots[p][k]) ∧
  (∀ p : PortIdx, SlotsDistinct s.slots[p]) ∧
  SchedInv s.config s.sched ∧
  SessionInv s.sess ∧
  BufferInv s.config s.buf ∧
  (s.booted = true → BootedInv s) ∧
  (s.booted = false → UnbootedInv s)

/-- The sender of a message command (R99); none for every other operation. -/
def senderOf : Instr → Option Half
  | .rxPingreq srcNid | .rxPing srcNid _ _ _ | .rxInfoGet srcNid _ | .rxCfgGet srcNid _ => some srcNid
  | .rxCfgSet srcNid _ _ | .rxAccdataGet srcNid _ _ _ | .rxPort6Get srcNid _ _ _ => some srcNid
  | .rxSetaddr srcNid _ | .rxOther srcNid => some srcNid
  | .demod _ _ | .enc48 _ | .dec84 _ | .extract _ _ => none
  | .trigger _ | .capdone | .tick | .progopen | .boot => none
  | .pair _ _ | .slotupd _ _ _ | .slotexp | .addrreport | .occacc _ => none
  | .occdeb | .progexp | .keepalive | .collision => none
  | .reserved00 _ | .reserved05 _ | .reserved06 _ | .reserved07 _ => none
  | .reserved0D _ | .reserved0E _ | .reserved0F _ => none
  | .reserved19 _ | .reserved1A _ | .reserved1B _ | .reserved1C _ => none
  | .reserved1D _ | .reserved1E _ | .reserved1F _ => none

/-- A command or reserved word of the command port, as opposed to a micro-operation (R90). -/
def isPortCommand (i : Instr) : Bool := (encode i).isSome

/-- The result record of a command as an output. -/
def result (status : Status) (value : ResultValue) : Output := .res { status := status, value := value }

end Sys2Proof.Machine
end

