-- ==== Sys2Proof/Certificates/Slice0/Obligations.lean ====
section
/-! DEFINITION. The statements for the provers. They are written in the terms of the spec's rules, with the next state of
an operation spelled out, so that everything the statement does not name is said to be unchanged: every register, every
flag, every byte of BUF, the sampled inputs and what the host does next. -/

open Sys2Proof Sys2Proof.Machine

namespace Sys2Proof.Claims

/-- The exact absolute difference of two naturals (00_scope.md R12). -/
def deviation (a b : Nat) : Nat := ((a : Int) - (b : Int)).natAbs

/-- `(now - t) mod 2^32`, computed on naturals (60_exceptions.md R333). -/
def since (now t : Millis) : Nat := (now.toNat + 2 ^ 32 - t.toNat) % 2 ^ 32

/-- `(direction << 14) | address` (30_encoding.md R110), computed on naturals. -/
def slotWord (sl : Slot) : Half := BitVec.ofNat 16 (sl.direction.toNat * 2 ^ 14 + sl.address.toNat)

/-- The threshold of a ratio and a rating (10_state.md R36). -/
def saturated (c : Config) (num den : Nat) (i : Half) : BitVec 17 :=
  BitVec.ofNat 17 (min (num * i.toNat / den) (2 ^ (c.sampleW + 1) - 1))

/-- The record a ping carries (30_encoding.md R104) for a network id, a session and the module type. -/
def pingOf (nid : Half) (se : Session) (c : Config) : Output :=
  .tx (.ping nid se.masterNetworkId c.moduleType se.sessionId)

/-- `status` without a value. -/
def status (st : Status) : Output := .res { status := st, value := .none }

/-- `bits` is `DEMOD` of the window in BUF (40_demod.md R131). -/
def DemodRule (s : State) (off thr : Nat) (bits : List Bool) : Prop :=
  bits.length = s.config.winLen ∧
  ∀ i (h : i < bits.length), bits[i] = decide (deviation (bufRead s i) off < thr)

/-- `i` is the smallest index with `pos <= i <= L-2`, `bit[i] = 1` and `bit[i+1] = 0` (42_extractor.md R157). -/
def FirstStart (bits : List Bool) (pos i : Nat) : Prop :=
  pos ≤ i ∧ bits[i]? = some true ∧ bits[i + 1]? = some false ∧
  ∀ j, pos ≤ j → j < i → ¬ (bits[j]? = some true ∧ bits[j + 1]? = some false)

/-- What the 0 data bits of a frame add to `directionCount` (42_extractor.md R167). -/
def directionOfFrame (bits : List Bool) (sample : Nat → Nat) (off start : Nat) : Int :=
  ((List.range 8).countP fun k =>
      bits[start + 6 + 4 * k]? == some false && decide (off < sample (start + 6 + 4 * k)) : Nat) -
  ((List.range 8).countP fun k =>
      bits[start + 6 + 4 * k]? == some false && decide (sample (start + 6 + 4 * k) < off) : Nat)

/-- The scan of 42_extractor.md R157 with at most `left` more frames, from `pos`, ends with these frames and adds
`dc` to `directionCount`. -/
def ScanRule (c : Config) (bits : List Bool) (sample : Nat → Nat) (off : Nat) :
    Nat → Nat → Int → List Frame → Prop
  | left, pos, dc, [] => dc = 0 ∧ (left = 0 ∨ ∀ i, FirstStart bits pos i → bits.length - 1 < i + 1 + 34)
  | 0, _, _, _ :: _ => False
  | left + 1, pos, dc, f :: rest =>
    1 ≤ f.start ∧ FirstStart bits pos (f.start - 1) ∧ f.start + 34 ≤ bits.length - 1 ∧
    f.stop = f.start + 40 ∧ (∀ k, k < 8 → bits[f.start + 6 + 4 * k]? = some (f.code.getLsbD k)) ∧
    f.sym = decRom c f.code ∧
    ∃ dcRest, ScanRule c bits sample off left (f.start + 39) dcRest rest ∧
      dc = directionOfFrame bits sample off f.start + dcRest

/-- `r` is `EXTRACT` of the window in BUF with baseline `off` and threshold `thr` (42_extractor.md R157, R171). -/
def ExtractRule (s : State) (off thr : Nat) (r : FrameRecord) : Prop :=
  ∃ bits, DemodRule s off thr bits ∧ ScanRule s.config bits (bufRead s) off 8 0 r.directionCount r.frames

/-- A record has a channel-1 pair (43_assembler.md R185, R186). -/
def PairAccepted (r : FrameRecord) (f0 f1 : Frame) : Prop :=
  ∃ rest, r.frames = f0 :: f1 :: rest ∧ f0.sym.toNat ≤ 15 ∧ f1.sym.toNat ≤ 15 ∧
    f1.start < f0.stop + 10 ∧
    ∀ f2, rest.head? = some f2 → f2.sym.toNat ≤ 18 → f1.stop + 10 ≤ f2.start

/-- Two successive pairs of a port make the address `addr` (43_assembler.md R187). -/
def MakesAddress (prev cur : Chan) (addr : BitVec 14) : Prop :=
  (prev.lastSymbolId = 2 ∧ cur.lastSymbolId = 1 ∧
    addr.toNat = prev.lastSymbolValue.toNat % 64 * 256 + cur.lastSymbolValue.toNat) ∨
  (prev.lastSymbolId = 1 ∧ cur.lastSymbolId = 2 ∧
    addr.toNat = cur.lastSymbolValue.toNat % 64 * 256 + prev.lastSymbolValue.toNat)

/-- The direction of a count (43_assembler.md R189). -/
def directionCode (dc : Int) : BitVec 2 := if dc > 0 then 1 else if dc < 0 then 2 else 0

/-- One sample of `OCCACC` (44_occupancy.md R211). -/
def OccStep (c : Config) (trackSet : Nat) (now : Millis) (pr : PortRegs) (smp : Nat) (pr' : PortRegs) : Prop :=
  (pr.accCount + 1 ≠ c.occN →
    pr' = { pr with accSum := pr.accSum + deviation smp pr.voltageOffset.toNat, accCount := pr.accCount + 1 }) ∧
  (pr.accCount + 1 = c.occN →
    ∃ occ, (occ = true ↔ (pr.accSum + deviation smp pr.voltageOffset.toNat) / c.occN > trackSet) ∧
      (occ = pr.state → pr' = { pr with accSum := 0, accCount := 0 }) ∧
      (occ ≠ pr.state → pr' = { pr with accSum := 0, accCount := 0, state := occ,
                                        lastChangeTimestamp := now, reported := !pr.reported }))

/-- The samples of a capture one after another (44_occupancy.md R211). -/
def OccRun (c : Config) (trackSet : Nat) (now : Millis) : List Nat → PortRegs → PortRegs → Prop
  | [], pr, pr' => pr' = pr
  | smp :: rest, pr, pr' => ∃ mid, OccStep c trackSet now pr smp mid ∧ OccRun c trackSet now rest mid pr'

/-- The delay of 44_occupancy.md R215 has elapsed for a pending report (R214). -/
def AnnounceDue (cfg : ModuleConfig) (now : Millis) (pr : PortRegs) : Prop :=
  pr.reported = false ∧
  (if pr.state then cfg.trackFreeToSetDelay else cfg.trackSetToFreeDelay).toNat ≤ since now pr.lastChangeTimestamp

/-- The state after phase T1 of `TICK` (45_scheduler.md R238). -/
def TickConsumes (s t : State) : Prop :=
  (s.sched.dataReady = false → t = s) ∧
  (s.sched.dataReady = true → ∃ u,
    (s.sched.capPurpose = .railcom → ∃ r,
      ExtractRule s s.ports[s.sched.capPort].voltageOffset.toNat s.thr.thresholdVoltage.toNat r ∧
      exec (.pair s.sched.capPort r) s = .next u) ∧
    (s.sched.capPurpose = .current → exec (.occacc s.sched.capPort) s = .next u) ∧
    t = { u with sched := { u.sched with dataReady := false } })

/-- A `TX_PORT6` record of a port (30_encoding.md R108). -/
def IsPort6 (p : PortIdx) (o : Output) : Prop := ∃ nid id word, o = .tx (.port6 nid id (BitVec.ofNat 8 p.val) 0x01 word)

/-- A `TX_ACCDATA` record of a port and type (30_encoding.md R107). -/
def IsAccData (p : PortIdx) (type : Byte) (o : Output) : Prop :=
  ∃ nid id w0 w1, o = .tx (.accData nid id (BitVec.ofNat 8 p.val) type w0 w1)

/-- `(captureRunning, dataReady)` (45_scheduler.md R240). -/
def flags (s : State) : Bool × Bool := (s.sched.captureRunning, s.sched.dataReady)

/-- The reserved op codes of 30_encoding.md R118. -/
def reservedOps : List (BitVec 5) :=
  [0x00, 0x05, 0x06, 0x07, 0x0D, 0x0E, 0x0F, 0x19, 0x1A, 0x1B, 0x1C, 0x1D, 0x1E, 0x1F]

/-- A port command ran as a message that is not from this module's own id (46_responder.md R261). -/
def Foreign (s : State) (srcNid : Half) : Prop := s.booted = true ∧ srcNid ≠ s.cfg.networkId

/-- `idMatch(id)` (46_responder.md R282). -/
def IdMatches (s : State) (id : Half) : Prop :=
  id = s.cfg.moduleAddress ∨ id &&& s.config.nidPrefixMask = s.cfg.networkId &&& s.config.nidPrefixMask

/-- `s` with the network id drawn anew, the record persisted and a ping sent (46_responder.md R266). -/
def afterCollision (s : State) : State :=
  { s with
    cfg := { s.cfg with networkId := BitVec.ofNat 16 (s.config.idMin.toNat +
              s.inp.rand.toNat % (s.config.idMax.toNat - s.config.idMin.toNat + 1)) }
    resp := { lastPingTime := s.inp.now }
    out := s.out ++
      [.persist (encodeRecord { s.cfg with networkId := BitVec.ofNat 16 (s.config.idMin.toNat +
              s.inp.rand.toNat % (s.config.idMax.toNat - s.config.idMin.toNat + 1)) }),
       pingOf (BitVec.ofNat 16 (s.config.idMin.toNat +
              s.inp.rand.toNat % (s.config.idMax.toNat - s.config.idMin.toNat + 1))) s.sess s.config] }

/-- The configuration in a stored record, field by field (30_encoding.md R112). -/
def loadedConfig (r : RecordBits) : ModuleConfig :=
  { networkId := r.extractLsb' 0 16
    moduleAddress := r.extractLsb' 16 16
    sendChannel2Data := decide (r.extractLsb' 32 8 ≠ 0)
    trackSetCurrentThreshold := r.extractLsb' 40 16
    trackFreeToSetDelay := r.extractLsb' 56 16
    trackSetToFreeDelay := r.extractLsb' 72 16
    voltageOffset := Vector.ofFn fun p => r.extractLsb' (88 + 16 * p.val) 16 }

/-- The first-boot configuration (70_reset_and_hazards.md R354). -/
def defaultConfig (c : Config) (rand : Half) : ModuleConfig :=
  { networkId := BitVec.ofNat 16 (c.idMin.toNat + rand.toNat % (c.idMax.toNat - c.idMin.toNat + 1))
    moduleAddress := c.defModuleAddress
    sendChannel2Data := c.defSendCh2
    trackSetCurrentThreshold := c.defCurrentMa
    trackFreeToSetDelay := c.defFreeToSetMs
    trackSetToFreeDelay := c.defSetToFreeMs
    voltageOffset := Vector.ofFn fun _ => c.defVoltageOffset }

/-- The registers after `BOOT` with a configuration (70_reset_and_hazards.md R352, R353). -/
def bootedWith (cfg : ModuleConfig) (s : State) : State :=
  { s with
    cfg := cfg
    ports := Vector.ofFn fun p => { s.ports[p] with voltageOffset := cfg.voltageOffset[p] }
    thr := { thresholdVoltage := saturated s.config s.config.kNum s.config.kDen cfg.trackSetCurrentThreshold
             trackSetVoltage := saturated s.config s.config.k2Num s.config.k2Den cfg.trackSetCurrentThreshold }
    resp := { lastPingTime := s.inp.now }
    booted := true }

end Sys2Proof.Claims

open Sys2Proof.Claims

/-! ### Encoding -/

/-- Every operand of every command, at every value, survives encoding and decoding (30_encoding.md, the op table
and the payload layouts). -/
def Obligations.DecodeOfEncodeIsIdentity : Prop :=
  ∀ (i : Instr) (w : CmdWord), encode i = some w → decode w = i

/-- Every word decodes to an operation with a command word of the same op code, and that word decodes the same: only
bits the layout does not name can differ (30_encoding.md, "Bits not named are ignored on input"). -/
def Obligations.EncodeOfDecodeKeepsNamedBits : Prop :=
  ∀ w : CmdWord, ∃ w', encode (decode w) = some w' ∧ opOf w' = opOf w ∧ decode w' = decode w

/-- Words of the spec's own vectors (95_test_vectors.md) decode to the commands written beside them. -/
def Obligations.VectorWordsDecode : Prop :=
  decode 0x01000000000FA00064 = .demod 2000 100 ∧
  decode 0x020000000000000010 = .enc48 16 ∧
  decode 0x0300000000000000AA = .dec84 0xAA ∧
  decode 0x04000000000FA00064 = .extract 2000 100 ∧
  decode 0x080000000000000001 = .trigger .idle ∧
  decode 0x0A0000000000000000 = .tick ∧
  decode 0x111234123420010007 = .rxPing 0x1234 0x1234 0x2001 7 ∧
  decode 0x1400010040000007D0 = .rxCfgSet 0x0001 0x00400000 2000 ∧
  decode 0x161234C00F07010000 = .rxPort6Get 0x1234 0xC00F 7 1 ∧
  decode 0x171234033300000000 = .rxSetaddr 0x1234 0x0333

/-- The wires of the output records: `arm[3:1]`, `arm[0]` (R101), and of each `tx` record the kind, `srcNid` and
every field at its place, unused low bits 0 (R103 to R108). -/
def Obligations.OutputWiresCarryTheFields : Prop :=
  (∀ (p : PortIdx) u, (armWire p u).extractLsb' 1 3 = BitVec.ofNat 3 p.val ∧
    ((armWire p u).extractLsb' 0 1 = 0 ↔ u = .railcom)) ∧
  (∀ a b c d, (txWire (.ping a b c d)).extractLsb' 80 3 = 0 ∧ (txWire (.ping a b c d)).extractLsb' 64 16 = a ∧
    (txWire (.ping a b c d)).extractLsb' 48 16 = b ∧ (txWire (.ping a b c d)).extractLsb' 32 16 = c ∧
    (txWire (.ping a b c d)).extractLsb' 16 16 = d ∧ (txWire (.ping a b c d)).extractLsb' 0 16 = 0) ∧
  (∀ a t v, (txWire (.infoAck a t v)).extractLsb' 80 3 = 1 ∧ (txWire (.infoAck a t v)).extractLsb' 64 16 = a ∧
    (txWire (.infoAck a t v)).extractLsb' 48 16 = t ∧ (txWire (.infoAck a t v)).extractLsb' 16 32 = v ∧
    (txWire (.infoAck a t v)).extractLsb' 0 16 = 0) ∧
  (∀ a t v, (txWire (.cfgAck a t v)).extractLsb' 80 3 = 2 ∧ (txWire (.cfgAck a t v)).extractLsb' 64 16 = a ∧
    (txWire (.cfgAck a t v)).extractLsb' 32 32 = t ∧ (txWire (.cfgAck a t v)).extractLsb' 16 16 = v ∧
    (txWire (.cfgAck a t v)).extractLsb' 0 16 = 0) ∧
  (∀ a i p t x y, (txWire (.accData a i p t x y)).extractLsb' 80 3 = 3 ∧
    (txWire (.accData a i p t x y)).extractLsb' 64 16 = a ∧ (txWire (.accData a i p t x y)).extractLsb' 48 16 = i ∧
    (txWire (.accData a i p t x y)).extractLsb' 40 8 = p ∧ (txWire (.accData a i p t x y)).extractLsb' 32 8 = t ∧
    (txWire (.accData a i p t x y)).extractLsb' 16 16 = x ∧ (txWire (.accData a i p t x y)).extractLsb' 0 16 = y) ∧
  (∀ a i p t x, (txWire (.port6 a i p t x)).extractLsb' 80 3 = 4 ∧
    (txWire (.port6 a i p t x)).extractLsb' 64 16 = a ∧ (txWire (.port6 a i p t x)).extractLsb' 48 16 = i ∧
    (txWire (.port6 a i p t x)).extractLsb' 40 8 = p ∧ (txWire (.port6 a i p t x)).extractLsb' 32 8 = t ∧
    (txWire (.port6 a i p t x)).extractLsb' 16 16 = x ∧ (txWire (.port6 a i p t x)).extractLsb' 0 16 = 0)

/-- The persisted record byte by byte (R112): little-endian fields at their offsets, the flag a byte 0x00 or 0x01;
loading gives the configuration back; on load any non-zero flag byte reads as 1. -/
def Obligations.RecordLayout : Prop :=
  (∀ cfg : ModuleConfig,
    recordByte (encodeRecord cfg) 0 = cfg.networkId.extractLsb' 0 8 ∧
    recordByte (encodeRecord cfg) 1 = cfg.networkId.extractLsb' 8 8 ∧
    recordByte (encodeRecord cfg) 2 = cfg.moduleAddress.extractLsb' 0 8 ∧
    recordByte (encodeRecord cfg) 3 = cfg.moduleAddress.extractLsb' 8 8 ∧
    recordByte (encodeRecord cfg) 4 = (if cfg.sendChannel2Data then 0x01 else 0x00) ∧
    recordByte (encodeRecord cfg) 5 = cfg.trackSetCurrentThreshold.extractLsb' 0 8 ∧
    recordByte (encodeRecord cfg) 6 = cfg.trackSetCurrentThreshold.extractLsb' 8 8 ∧
    recordByte (encodeRecord cfg) 7 = cfg.trackFreeToSetDelay.extractLsb' 0 8 ∧
    recordByte (encodeRecord cfg) 8 = cfg.trackFreeToSetDelay.extractLsb' 8 8 ∧
    recordByte (encodeRecord cfg) 9 = cfg.trackSetToFreeDelay.extractLsb' 0 8 ∧
    recordByte (encodeRecord cfg) 10 = cfg.trackSetToFreeDelay.extractLsb' 8 8 ∧
    (∀ p : PortIdx,
      recordByte (encodeRecord cfg) (11 + 2 * p.val) = (cfg.voltageOffset[p]).extractLsb' 0 8 ∧
      recordByte (encodeRecord cfg) (12 + 2 * p.val) = (cfg.voltageOffset[p]).extractLsb' 8 8) ∧
    decodeRecord (encodeRecord cfg) = cfg) ∧
  (∀ r : RecordBits, (decodeRecord r).sendChannel2Data = true ↔ recordByte r 4 ≠ 0)

/-! ### The step and the host interface -/

/-- A step with a command presented and no record waiting runs the decoded operation, with the input ports sampled
and the event consumed; every decoded operation is well formed. That what the host does next is a list in State, one event
a step, is the model's choice (log 1). -/
def Obligations.StepRunsTheDecodedCommand : Prop :=
  (∀ w, (decode w).wf = true) ∧
  ∀ (s : State) (w : CmdWord) (inp : Inputs) (rest : List HostEvent) (i : Instr),
    s.host = .command w inp :: rest → s.out = [] → decode w = i → i.wf = true →
    step s = exec i { s with inp := inp, host := rest }

/-- With a record waiting no command is accepted (R367 says this much). That the step then answers the very same state,
the command keeping its place at the head of the list so that no take or rst listed behind it moves, is the model's choice
(log 19), as is the list of the host's events (log 1). With nothing presented the state is held (R338). -/
def Obligations.StepWaits : Prop :=
  (∀ (s : State) (w : CmdWord) (inp : Inputs) (rest : List HostEvent),
    s.host = .command w inp :: rest → s.out ≠ [] → step s = .next s) ∧
  (∀ s : State, s.host = [] → step s = .next s)

/-- Taking from a channel removes the first waiting record of that channel and keeps all others in order; on an
empty channel nothing moves (R96; one merged list: log 12). -/
def Obligations.TakeRemovesFirstOfChannel : Prop :=
  ∀ (s : State) (ch : Channel) (rest : List HostEvent), s.host = .take ch :: rest →
    ((∀ o ∈ s.out, channelOf o ≠ ch) → step s = .next { s with host := rest }) ∧
    (∀ a o b, s.out = a ++ o :: b → channelOf o = ch → (∀ x ∈ a, channelOf x ≠ ch) →
      step s = .next { s with out := a ++ b, host := rest })

/-- The sampler's fill (R61, R363): afterwards element `i` of BUF is sample `i`. That every other element is as before, so
that a fill shorter than BUF writes the first elements only, is the model's choice (log 18), as are an element as two bytes
and the canonical form of the memory (log 7). More samples than BUF has elements break the host's duty R363: then no
register changes (R362), and BUF holds free values, in its form and with its bounds (the model's choice, log 18). -/
def Obligations.FillStoresTheSamples : Prop :=
  ∀ (s : State) (l : List Half) (rest : List HostEvent), s.host = .fill l :: rest → s.buf.wf →
    (l.length ≤ max s.config.winLen s.config.csLen →
      ∃ m : Memory, step s = .next { s with buf := m, host := rest } ∧ m.wf ∧
        (∀ i (h : i < l.length), m.readElement i = l[i]) ∧
        (∀ i, l.length ≤ i → m.readElement i = s.buf.readElement i)) ∧
    (max s.config.winLen s.config.csLen < l.length →
      ∃ m : Memory, step s = .next { s with buf := m, host := rest } ∧ m.wf ∧
        ∀ i, max s.config.winLen s.config.csLen ≤ i → m.readElement i = s.buf.readElement i)

/-- `rst` (R350): every register of the reset table takes its value and every record not yet taken is dropped; and no
other step leads from `booted = 1` to `booted = 0`. (`cfg`, `thr` are unspecified after `rst`.) -/
def Obligations.RstIsTheOnlyWayBack : Prop :=
  (∀ (s : State) (rest : List HostEvent), s.host = .rst :: rest → ∃ t, step s = .next t ∧
    t.booted = false ∧ t.out = [] ∧
    (∀ p : PortIdx, t.ports[p] = { state := false, reported := true, lastChangeTimestamp := 0,
                                    voltageOffset := 0, accSum := 0, accCount := 0 }) ∧
    (∀ (p : PortIdx) (k : SlotIdx),
      t.slots[p][k] = { address := 0, direction := 0, lastSeenTimestamp := 0, reported := true }) ∧
    (∀ p : PortIdx, t.chans[p] = { lastSymbolId := 0, lastSymbolValue := 0 }) ∧
    t.sess = { hasMaster := false, masterNetworkId := 0, sessionId := 0 } ∧
    t.resp = { lastPingTime := 0 } ∧ t.prog = { active := false, openedAt := 0 } ∧
    t.sched = { csCursor := 0, rcCursor := 0, rcCount := 0, captureRunning := false, dataReady := false,
                capPort := 0, capPurpose := .railcom }) ∧
  (∀ s t : State, step s = .next t → s.booted = true → t.booted = false → ∃ rest, s.host = .rst :: rest)

/-! ### Invariants -/

/-- The invariant `State.Inv` (Sys2Proof/Safety.lean) is kept by every step, from every state that has it. -/
def Obligations.StepKeepsInvariant : Prop :=
  ∀ s t : State, s.Inv → step s = .next t → t.Inv

/-- The invariant holds after reset: of the module modelled, and of every module whose parameters meet R8. It rests on
the zeros the model gives `cfg` and `thr` at reset in no clause. -/
def Obligations.ResetMeetsInvariant : Prop :=
  State.reset.Inv ∧ ∀ c : Config, c.wf → (State.resetWith c).Inv

/-- Every operation, on every state, answers a next state: no meaning refuses or faults (R295, R322). -/
def Obligations.EveryOperationCompletes : Prop :=
  ∀ (i : Instr) (s : State), ∃ t, exec i s = .next t

/-- No operation writes BUF, the parameters, the sampled inputs or what the host does next (R61: "The CORE only reads
BUF"). -/
def Obligations.OperationsLeaveBufferAndInputs : Prop :=
  ∀ (i : Instr) (s t : State), exec i s = .next t →
    t.config = s.config ∧ t.buf = s.buf ∧ t.inp = s.inp ∧ t.host = s.host ∧
    ∀ a, t.buf.read a = s.buf.read a

/-- While a capture is in flight no command's effect depends on BUF (R241(b)): with other BUF contents the same
command has the same effect. -/
def Obligations.BufferUnreadWhileCapturing : Prop :=
  ∀ (i : Instr) (s t : State) (m : Memory), isPortCommand i = true →
    s.sched.captureRunning = true → s.sched.dataReady = false →
    exec i s = .next t → exec i { s with buf := m } = .next { t with buf := m }

/-- Each command ends with exactly one result record, after all its other records (R98); a micro-operation has none
(log 11). -/
def Obligations.OneResultPerCommand : Prop :=
  ∀ (i : Instr) (s : State), ∃ t recs, exec i s = .next t ∧ (∀ o ∈ recs, ∀ r, o ≠ .res r) ∧
    (isPortCommand i = true → ∃ r, t.out = s.out ++ recs ++ [.res r]) ∧
    (isPortCommand i = false → t.out = s.out ++ recs)

/-- A command that reports IGNORED, RESERVED or UNHANDLED has changed nothing and emitted nothing else (R323). -/
def Obligations.RefusedCommandsChangeNothing : Prop :=
  ∀ (i : Instr) (s t : State) (recs : List Output) (r : Result),
    exec i s = .next t → t.out = s.out ++ recs ++ [.res r] →
    r.status = .ignored ∨ r.status = .reserved ∨ r.status = .unhandled →
    t = { s with out := s.out ++ [.res r] }

/-- Who can change what (R331): after `BOOT`, the network id changes only by the collision rule, the module address
only by an address set inside the programming window, the four tagged fields only by a config set, and the
calibration offsets not at all. -/
def Obligations.WhoWritesTheConfiguration : Prop :=
  ∀ (i : Instr) (s t : State), s.booted = true → exec i s = .next t →
    (t.cfg.networkId ≠ s.cfg.networkId → i = .collision ∨ senderOf i = some s.cfg.networkId) ∧
    (t.cfg.moduleAddress ≠ s.cfg.moduleAddress →
      ∃ src a, i = .rxSetaddr src a ∧ s.prog.active = true ∧ t.cfg.moduleAddress = a) ∧
    ((t.cfg.sendChannel2Data ≠ s.cfg.sendChannel2Data ∨
      t.cfg.trackSetCurrentThreshold ≠ s.cfg.trackSetCurrentThreshold ∨
      t.cfg.trackFreeToSetDelay ≠ s.cfg.trackFreeToSetDelay ∨
      t.cfg.trackSetToFreeDelay ≠ s.cfg.trackSetToFreeDelay) → ∃ src tag v, i = .rxCfgSet src tag v) ∧
    t.cfg.voltageOffset = s.cfg.voltageOffset ∧
    ∀ p : PortIdx, t.ports[p].voltageOffset = s.ports[p].voltageOffset

/-- The session state machine (R272): the session changes only by a qualifying ping that names another master, which it
adopts with `sessionId` 0 and one ping of its own; in particular nothing leads back to NoMaster, and a collision leaves
the session alone. A ping qualifies by the mask test of R270 alone (log 21). -/
def Obligations.SessionChangesOnlyByAdoption : Prop :=
  ∀ (i : Instr) (s t : State), exec i s = .next t →
    t.sess = s.sess ∨
    ∃ src m ty sid, i = .rxPing src m ty sid ∧ Foreign s src ∧ ty &&& 0x2000 = 0x2000 ∧
      (s.sess.hasMaster = false ∨ m ≠ s.sess.masterNetworkId) ∧
      t.sess = { hasMaster := true, masterNetworkId := m, sessionId := 0 } ∧
      t.out = s.out ++ [pingOf s.cfg.networkId t.sess s.config, status .handled]

/-! ### Function commands -/

/-- `DEMOD` (R131): bit `i` is 1 iff the absolute deviation of sample `i` from the baseline is below the threshold;
IGNORED, with no value, while a capture is in flight or unconsumed. -/
def Obligations.DemodComparesEverySample : Prop :=
  ∀ (off : Half) (thr : BitVec 17) (s : State),
    (s.sched.captureRunning = false → s.sched.dataReady = false →
      ∃ bits, DemodRule s off.toNat thr.toNat bits ∧
        exec (.demod off thr) s =
          .next { s with out := s.out ++ [.res { status := .done, value := .bits bits }] }) ∧
    (s.sched.captureRunning = true ∨ s.sched.dataReady = true →
      exec (.demod off thr) s = .next { s with out := s.out ++ [status .ignored] })

/-- `ENC48` (R141): the codeword of symbols 0 to 18; IGNORED with value 0x00 for 19 to 31. -/
def Obligations.EncodeSymbol : Prop :=
  ∀ (sym : Sys2Proof.Symbol) (s : State),
    (∀ h : sym.toNat < 19, exec (.enc48 sym) s =
      .next { s with out := s.out ++ [.res { status := .done, value := .codeword (s.config.code[sym.toNat]) }] }) ∧
    (19 ≤ sym.toNat → exec (.enc48 sym) s =
      .next { s with out := s.out ++ [.res { status := .ignored, value := .codeword 0x00 }] })

/-- `DEC84` (R142): the symbol whose codeword the byte is, INVALID (31) if it is none; DONE in both cases. -/
def Obligations.DecodeByte : Prop :=
  ∀ (b : Byte) (s : State), s.config.wf →
    (∀ k : Fin 19, s.config.code[k] = b → exec (.dec84 b) s =
      .next { s with out := s.out ++ [.res { status := .done, value := .sym (BitVec.ofNat 5 k.val) }] }) ∧
    ((∀ k : Fin 19, s.config.code[k] ≠ b) → exec (.dec84 b) s =
      .next { s with out := s.out ++ [.res { status := .done, value := .sym 31 }] })

/-- The laws of the codec (R144), for every code table that meets R143: decode inverts encode on the 19 symbols, a byte
that is no codeword decodes to INVALID, encode inverts decode on valid bytes, exactly 19 of the 256 bytes are valid, and
every unbalanced byte is invalid. The spec marks R144 as derived. -/
def Obligations.CodecLaws : Prop :=
  ∀ c : Config, c.wf →
    (∀ s : Sys2Proof.Symbol, s.toNat ≤ 18 → ∃ b, encRom c s = some b ∧ decRom c b = s) ∧
    (∀ b : Byte, (∀ s, encRom c s ≠ some b) → decRom c b = 31) ∧
    (∀ b : Byte, decRom c b ≠ 31 → encRom c (decRom c b) = some b) ∧
    ((List.range 256).countP fun n => decide (decRom c (BitVec.ofNat 8 n) ≠ 31)) = 19 ∧
    (∀ b : Byte, popcount b ≠ 4 → decRom c b = 31)

/-- `EXTRACT` (R157) as a command: the record of the scan rule; IGNORED, with no value, while a capture is in flight or
unconsumed. -/
def Obligations.ExtractFollowsTheScan : Prop :=
  ∀ (off : Half) (thr : BitVec 17) (s : State),
    (s.sched.captureRunning = false → s.sched.dataReady = false →
      ∃ r, ExtractRule s off.toNat thr.toNat r ∧
        exec (.extract off thr) s =
          .next { s with out := s.out ++ [.res { status := .done, value := .frames r }] }) ∧
    (s.sched.captureRunning = true ∨ s.sched.dataReady = true →
      exec (.extract off thr) s = .next { s with out := s.out ++ [status .ignored] })

/-- Properties of every frame record (R169(a) to (d), R167): at most 8 frames, and at most `(L + 4) / 40`; the first
starts at tick 1 or later; frames ascend without overlap; each fits the window and starts at a 1-to-0 transition; the
direction count stays within -64 .. 64. The spec marks R169 as derived. -/
def Obligations.ExtractedFramesFitTheWindow : Prop :=
  ∀ (c : Config) (bits : List Bool) (samples : List Nat) (off : Nat) (r : FrameRecord),
    extractWindow c bits samples off = r →
    r.n ≤ 8 ∧ r.n ≤ (bits.length + 4) / 40 ∧ -64 ≤ r.directionCount ∧ r.directionCount ≤ 64 ∧
    r.wf = true ∧
    ∀ f ∈ r.frames, f.start + 34 ≤ bits.length - 1 ∧ bits[f.start - 1]? = some true ∧ bits[f.start]? = some false

/-! ### Reserved op codes -/

/-- A reserved op code (R118): no state change, no output but the result RESERVED, whatever the payload. -/
def Obligations.ReservedOpsOnlyReport : Prop :=
  (∀ op ∈ reservedOps, ∀ (p : BitVec 64) (s : State),
    exec (decode (mkWord op p)) s = .next { s with out := s.out ++ [status .reserved] }) ∧
  (∀ (p : BitVec 64) (s : State),
    exec (.reserved00 p) s = .next { s with out := s.out ++ [status .reserved] } ∧
    exec (.reserved05 p) s = .next { s with out := s.out ++ [status .reserved] } ∧
    exec (.reserved06 p) s = .next { s with out := s.out ++ [status .reserved] } ∧
    exec (.reserved07 p) s = .next { s with out := s.out ++ [status .reserved] } ∧
    exec (.reserved0D p) s = .next { s with out := s.out ++ [status .reserved] } ∧
    exec (.reserved0E p) s = .next { s with out := s.out ++ [status .reserved] } ∧
    exec (.reserved0F p) s = .next { s with out := s.out ++ [status .reserved] } ∧
    exec (.reserved19 p) s = .next { s with out := s.out ++ [status .reserved] } ∧
    exec (.reserved1A p) s = .next { s with out := s.out ++ [status .reserved] } ∧
    exec (.reserved1B p) s = .next { s with out := s.out ++ [status .reserved] } ∧
    exec (.reserved1C p) s = .next { s with out := s.out ++ [status .reserved] } ∧
    exec (.reserved1D p) s = .next { s with out := s.out ++ [status .reserved] } ∧
    exec (.reserved1E p) s = .next { s with out := s.out ++ [status .reserved] } ∧
    exec (.reserved1F p) s = .next { s with out := s.out ++ [status .reserved] })

/-! ### The scheduler -/

/-- `TRIGGER` (R231): arms the next capture of its kind, or is IGNORED. -/
def Obligations.TriggerArmsTheNextCapture : Prop :=
  ∀ s : State,
    (s.booted = true → s.sched.captureRunning = false → s.sched.dataReady = false →
      (s.sched.rcCount + 1 = s.config.maxConsec → exec (.trigger .cutout) s = .next { s with
        sched := { s.sched with rcCount := 0, rcCursor := s.sched.rcCursor + 1, capPort := s.sched.rcCursor,
                                capPurpose := .railcom, captureRunning := true }
        out := s.out ++ [.arm s.sched.rcCursor .railcom, status .done] }) ∧
      (s.sched.rcCount + 1 ≠ s.config.maxConsec → exec (.trigger .cutout) s = .next { s with
        sched := { s.sched with rcCount := s.sched.rcCount + 1, capPort := s.sched.rcCursor,
                                capPurpose := .railcom, captureRunning := true }
        out := s.out ++ [.arm s.sched.rcCursor .railcom, status .done] }) ∧
      exec (.trigger .idle) s = .next { s with
        sched := { s.sched with csCursor := s.sched.csCursor + 1, capPort := s.sched.csCursor,
                                capPurpose := .current, captureRunning := true }
        out := s.out ++ [.arm s.sched.csCursor .current, status .done] }) ∧
    (s.booted = false ∨ s.sched.captureRunning = true ∨ s.sched.dataReady = true →
      ∀ kind, exec (.trigger kind) s = .next { s with out := s.out ++ [status .ignored] })

/-- `CAPDONE` (R236), the capture-complete interrupt: the two flags, and nothing else. -/
def Obligations.CapdoneHandsOverTheBuffer : Prop :=
  ∀ s : State,
    (s.booted = true → s.sched.captureRunning = true → exec .capdone s = .next { s with
      sched := { s.sched with captureRunning := false, dataReady := true }
      out := s.out ++ [status .done] }) ∧
    (s.booted = false ∨ s.sched.captureRunning = false →
      exec .capdone s = .next { s with out := s.out ++ [status .ignored] })

/-- `TICK` (R237, R238): the phases T1 to T6 in order, each the effect of its micro-operation, then DONE; IGNORED
before `BOOT`. -/
def Obligations.TickRunsThePhasesInOrder : Prop :=
  ∀ s : State,
    (s.booted = false → exec .tick s = .next { s with out := s.out ++ [status .ignored] }) ∧
    (s.booted = true → ∃ t1 t2 t3 t4 t5 t6,
      TickConsumes s t1 ∧ exec .slotexp t1 = .next t2 ∧ exec .occdeb t2 = .next t3 ∧
      exec .addrreport t3 = .next t4 ∧ exec .progexp t4 = .next t5 ∧ exec .keepalive t5 = .next t6 ∧
      exec .tick s = .next { t6 with out := t6.out ++ [status .done] })

/-- The order and number of the records of one `TICK` (R239): `TX_PORT6` by ascending port, then the `TX_ACCDATA`
pairs by ascending port with type 0x11 before 0x12, then at most one `TX_PING`; at most 25 in all. -/
def Obligations.TickOutputOrder : Prop :=
  ∀ s : State, s.booted = true →
    ∃ t occ acc ping, exec .tick s = .next t ∧ t.out = s.out ++ occ ++ acc ++ ping ++ [status .done] ∧
      (∃ ps : List PortIdx, ps.Pairwise (· < ·) ∧ List.Forall₂ IsPort6 ps occ) ∧
      (∃ (qs : List PortIdx) (pairs : List (Output × Output)), qs.Pairwise (· < ·) ∧
        List.Forall₂ (fun q pr => IsAccData q 0x11 pr.1 ∧ IsAccData q 0x12 pr.2) qs pairs ∧
        acc = pairs.flatMap fun pr => [pr.1, pr.2]) ∧
      (ping = [] ∨ ∃ a b c d, ping = [.tx (.ping a b c d)]) ∧
      (occ ++ acc ++ ping).length ≤ 25

/-- The capture handshake (R240): over every operation, the two flags move only as the table says. The spec marks R240
as derived. -/
def Obligations.CaptureHandshake : Prop :=
  ∀ (i : Instr) (s t : State), exec i s = .next t →
    flags t = flags s ∨
    ((∃ kind, i = .trigger kind) ∧ s.booted = true ∧ flags s = (false, false) ∧ flags t = (true, false)) ∨
    (i = .capdone ∧ s.booted = true ∧ s.sched.captureRunning = true ∧ flags t = (false, true)) ∨
    (i = .tick ∧ s.booted = true ∧ s.sched.dataReady = true ∧ flags t = (s.sched.captureRunning, false))

/-- The current-sense cursor (R232): each started current-sense capture serves the port it names and advances it by one
modulo 8; eight accepted `IDLE` triggers, whatever happens between them to the rest of the state, visit every port
once. -/
def Obligations.CurrentCursorVisitsEveryPort : Prop :=
  ∀ seq : Nat → State,
    (∀ k, (seq k).booted = true ∧ flags (seq k) = (false, false) ∧
      ∃ t, exec (.trigger .idle) (seq k) = .next t ∧ (seq (k + 1)).sched.csCursor = t.sched.csCursor) →
    (∀ k, (seq (k + 1)).sched.csCursor = (seq k).sched.csCursor + 1) ∧
    ∀ p : PortIdx, ∃! k, k < 8 ∧
      ∃ t, exec (.trigger .idle) (seq k) = .next t ∧ t.sched.capPort = p ∧ t.sched.capPurpose = .current

/-- The railcom cursor (R233): it stays on a port for MAX_CONSEC started decode captures, which `rcCount` counts, then
advances by one modulo 8; an ignored trigger does not use up a port's turn. -/
def Obligations.RailcomCursorDwellsThenAdvances : Prop :=
  (∀ (n : Nat) (seq : Nat → State) (c : Config), 1 ≤ c.maxConsec →
    (∀ k, (seq k).config = c ∧ (seq k).booted = true ∧ flags (seq k) = (false, false) ∧
      ∃ t, exec (.trigger .cutout) (seq k) = .next t ∧
        (seq (k + 1)).sched.rcCursor = t.sched.rcCursor ∧ (seq (k + 1)).sched.rcCount = t.sched.rcCount) →
    (seq 0).sched.rcCount = 0 →
    (n < c.maxConsec → (seq n).sched.rcCursor = (seq 0).sched.rcCursor ∧ (seq n).sched.rcCount = n) ∧
    (n = c.maxConsec → (seq n).sched.rcCursor = (seq 0).sched.rcCursor + 1 ∧ (seq n).sched.rcCount = 0)) ∧
  (∀ (s t : State) (kind : Boundary), flags s ≠ (false, false) → exec (.trigger kind) s = .next t →
    t.sched = s.sched)

/-! ### The address assembler -/

/-- `PAIR` (R184): a window without an accepted pair resets `chan[p]`; an accepted pair is stored, and if it completes
an address other than 0 and 255, `SLOTUPD` follows with the direction of this window. -/
def Obligations.PairRule : Prop :=
  ∀ (p : PortIdx) (r : FrameRecord) (s : State),
    ((¬ ∃ f0 f1, PairAccepted r f0 f1) → exec (.pair p r) s = .next { s with
      chans := s.chans.set p.val { lastSymbolId := 0, lastSymbolValue := 0 } p.isLt }) ∧
    (∀ f0 f1 id val, PairAccepted r f0 f1 →
      s.config.pairFields.toList[16 * f0.sym.toNat + f1.sym.toNat]? = some (id, val) →
      (∀ addr, MakesAddress s.chans[p] { lastSymbolId := id, lastSymbolValue := val } addr →
        addr ≠ 0 → addr ≠ 255 →
        ∃ t, exec (.slotupd p addr (directionCode r.directionCount)) { s with
            chans := s.chans.set p.val { lastSymbolId := id, lastSymbolValue := val } p.isLt } = .next t ∧
          exec (.pair p r) s = .next t) ∧
      ((∀ addr, MakesAddress s.chans[p] { lastSymbolId := id, lastSymbolValue := val } addr →
          addr = 0 ∨ addr = 255) →
        exec (.pair p r) s = .next { s with
          chans := s.chans.set p.val { lastSymbolId := id, lastSymbolValue := val } p.isLt }))

/-- `SLOTUPD` (R190): a slot that holds the address is refreshed, with a changed direction stored and marked; else the
first empty slot is claimed; else nothing changes. -/
def Obligations.SlotupdRule : Prop :=
  ∀ (p : PortIdx) (addr : BitVec 14) (dir : BitVec 2) (s : State),
    (∀ k : SlotIdx, s.slots[p][k].address = addr → (∀ j : SlotIdx, j < k → s.slots[p][j].address ≠ addr) →
      exec (.slotupd p addr dir) s = .next { s with
        slots := s.slots.set p.val (s.slots[p].set k.val
          { address := addr, direction := dir, lastSeenTimestamp := s.inp.now,
            reported := if s.slots[p][k].direction = dir then s.slots[p][k].reported else false } k.isLt) p.isLt }) ∧
    ((∀ k : SlotIdx, s.slots[p][k].address ≠ addr) →
      (∀ k : SlotIdx, s.slots[p][k].address = 0 → (∀ j : SlotIdx, j < k → s.slots[p][j].address ≠ 0) →
        exec (.slotupd p addr dir) s = .next { s with
          slots := s.slots.set p.val (s.slots[p].set k.val
            { address := addr, direction := dir, lastSeenTimestamp := s.inp.now, reported := false } k.isLt)
            p.isLt }) ∧
      ((∀ k : SlotIdx, s.slots[p][k].address ≠ 0) → exec (.slotupd p addr dir) s = .next s))

/-- The capacity policy (R191): a new address meeting a full table changes nothing at all; of five distinct addresses
fed to a port with an empty table, exactly the first four occupy the slots, in the order seen. -/
def Obligations.FifthAddressIsDropped : Prop :=
  (∀ (p : PortIdx) (addr : BitVec 14) (dir : BitVec 2) (s : State),
    (∀ k : SlotIdx, s.slots[p][k].address ≠ 0 ∧ s.slots[p][k].address ≠ addr) →
    exec (.slotupd p addr dir) s = .next s) ∧
  (∀ (p : PortIdx) (s : State) (a : Fin 5 → BitVec 14) (d : Fin 5 → BitVec 2),
    (∀ k : SlotIdx, s.slots[p][k].address = 0) → (∀ j, a j ≠ 0) → (∀ j k, j ≠ k → a j ≠ a k) →
    ∃ t1 t2 t3 t4, exec (.slotupd p (a 0) (d 0)) s = .next t1 ∧ exec (.slotupd p (a 1) (d 1)) t1 = .next t2 ∧
      exec (.slotupd p (a 2) (d 2)) t2 = .next t3 ∧ exec (.slotupd p (a 3) (d 3)) t3 = .next t4 ∧
      exec (.slotupd p (a 4) (d 4)) t4 = .next t4 ∧
      ∀ k : SlotIdx, t4.slots[p][k].address = a k.castSucc ∧ t4.slots[p][k].direction = d k.castSucc)

/-- `SLOTEXP` (R193): every slot whose address has not been refreshed within the timeout is emptied and marked; every
other slot is as before. -/
def Obligations.SlotexpRule : Prop :=
  ∀ s : State, ∃ v : Vector (Vector Slot 4) 8, exec .slotexp s = .next { s with slots := v } ∧
    ∀ (p : PortIdx) (k : SlotIdx),
      (s.slots[p][k].address ≠ 0 →
        s.config.railcomTimeoutMs.toNat ≤ since s.inp.now s.slots[p][k].lastSeenTimestamp →
        v[p][k] = { s.slots[p][k] with address := 0, direction := 0, reported := false }) ∧
      (s.slots[p][k].address = 0 ∨
        since s.inp.now s.slots[p][k].lastSeenTimestamp < s.config.railcomTimeoutMs.toNat →
        v[p][k] = s.slots[p][k])

/-- `ADDRREPORT` (R195): for every port with a changed slot, in ascending order, the two records of its four slots;
afterwards every slot is reported. -/
def Obligations.AddrreportRule : Prop :=
  ∀ s : State, exec .addrreport s = .next { s with
    slots := Vector.ofFn fun p => Vector.ofFn fun k => { s.slots[p][k] with reported := true }
    out := s.out ++ ([0, 1, 2, 3, 4, 5, 6, 7] : List PortIdx).flatMap fun p =>
      if ∃ k : SlotIdx, s.slots[p][k].reported = false then
        [.tx (.accData s.cfg.networkId s.cfg.moduleAddress (BitVec.ofNat 8 p.val) 0x11
           (slotWord s.slots[p][0]) (slotWord s.slots[p][1])),
         .tx (.accData s.cfg.networkId s.cfg.moduleAddress (BitVec.ofNat 8 p.val) 0x12
           (slotWord s.slots[p][2]) (slotWord s.slots[p][3]))]
      else [] }

/-! ### The occupancy detector -/

/-- `OCCACC` (R211): the samples of the capture one by one into the accumulator, a classification at every `OCC_N`-th;
only the port's own registers change. Where a baseline lies above full scale, the exact sum and a saturated threshold that
an average can still exceed are the model's choice (log 9, log 22). -/
def Obligations.OccaccRule : Prop :=
  ∀ (p : PortIdx) (s : State), ∃ pr,
    OccRun s.config s.thr.trackSetVoltage.toNat s.inp.now
      ((List.range s.config.csLen).map fun i => bufRead s i) s.ports[p] pr ∧
    exec (.occacc p) s = .next { s with ports := s.ports.set p.val pr p.isLt }

/-- `OCCDEB` (R214): for every port with a pending report whose delay has elapsed, in ascending order, the raw state is
announced and `reported` set; every other port is as before. -/
def Obligations.OccdebRule : Prop :=
  ∀ s : State, ∃ v : Vector PortRegs 8, ∃ due : PortIdx → Bool,
    (∀ p, due p = true ↔ AnnounceDue s.cfg s.inp.now s.ports[p]) ∧
    (∀ p : PortIdx, v[p] = if due p then { s.ports[p] with reported := true } else s.ports[p]) ∧
    exec .occdeb s = .next { s with
      ports := v
      out := s.out ++ (([0, 1, 2, 3, 4, 5, 6, 7] : List PortIdx).filter due).map fun p =>
        .tx (.port6 s.cfg.networkId s.cfg.moduleAddress (BitVec.ofNat 8 p.val) 0x01
          (if s.ports[p].state then 0x0001 else 0x0000)) }

/-- The reported state of a port changes only in `OCCDEB` (R216(c)), by itself or as a phase of `TICK`, and then the new
reported state is announced in a `TX_PORT6` record; so announcements of one port alternate (R216(b)). The spec marks
R216 as derived. -/
def Obligations.ReportedStateChangesOnlyWithAnnouncement : Prop :=
  ∀ (i : Instr) (s t : State) (p : PortIdx), exec i s = .next t →
    reportedState t.ports[p] ≠ reportedState s.ports[p] →
    (i = .occdeb ∨ i = .tick) ∧
    ∃ recs, t.out = s.out ++ recs ∧
      .tx (.port6 s.cfg.networkId s.cfg.moduleAddress (BitVec.ofNat 8 p.val) 0x01
        (if reportedState t.ports[p] then 0x0001 else 0x0000)) ∈ recs

/-! ### The protocol responder -/

/-- The common prologue of every message command (R261), with the collision rule (R266): IGNORED before `BOOT`; a sender
equal to the own network id is answered by a new id, the persisted record and a fresh ping, and the message's own
handler does not run. -/
def Obligations.MessagePrologue : Prop :=
  ∀ (i : Instr) (src : Half) (s : State), senderOf i = some src →
    (s.booted = false → exec i s = .next { s with out := s.out ++ [status .ignored] }) ∧
    (s.booted = true → src = s.cfg.networkId →
      exec i s = .next { afterCollision s with out := (afterCollision s).out ++ [status .collision] })

/-- `COLLISION` (R266) as a micro-operation; the drawn id lies in `ID_MIN .. ID_MAX` and is no sentinel (R267(c)). -/
def Obligations.CollisionRule : Prop :=
  ∀ s : State, s.config.wf → exec .collision s = .next (afterCollision s) ∧
    s.config.idMin.toNat ≤ (afterCollision s).cfg.networkId.toNat ∧
    (afterCollision s).cfg.networkId.toNat ≤ s.config.idMax.toNat ∧
    (afterCollision s).cfg.networkId ≠ 0x0000 ∧ (afterCollision s).cfg.networkId ≠ 0xFFFF

/-- `RX_PINGREQ` (R268): one ping, which restarts the keep-alive interval; HANDLED. -/
def Obligations.PingRequestIsAnswered : Prop :=
  ∀ (src : Half) (s : State), Foreign s src → exec (.rxPingreq src) s = .next { s with
    resp := { lastPingTime := s.inp.now }
    out := s.out ++ [pingOf s.cfg.networkId s.sess s.config, status .handled] }

/-- `RX_PING` (R270): a qualifying ping of another master is adopted and answered with one ping that carries the new
master and session 0; any other ping changes nothing. A ping qualifies by the mask test of R270 alone, also for a
`MODULE_TYPE` with bit 13 set, of which R273 says otherwise (the model's choice between them, log 21). -/
def Obligations.PingAdoptsNewMaster : Prop :=
  ∀ (src m ty sid : Half) (s : State), Foreign s src →
    (ty &&& 0x2000 = 0x2000 → s.sess.hasMaster = false ∨ m ≠ s.sess.masterNetworkId →
      exec (.rxPing src m ty sid) s = .next { s with
        sess := { hasMaster := true, masterNetworkId := m, sessionId := 0 }
        resp := { lastPingTime := s.inp.now }
        out := s.out ++ [.tx (.ping s.cfg.networkId m s.config.moduleType 0), status .handled] }) ∧
    (¬ (ty &&& 0x2000 = 0x2000 ∧ (s.sess.hasMaster = false ∨ m ≠ s.sess.masterNetworkId)) →
      exec (.rxPing src m ty sid) s = .next { s with out := s.out ++ [status .unhandled] })

/-- `RX_INFO_GET` (R274): the five tags and their values, anything else UNHANDLED. -/
def Obligations.InfoQueryAnswers : Prop :=
  ∀ (src tag : Half) (s : State), Foreign s src → s.config.wf →
    (∀ v : BitVec 32,
      ((tag = s.config.infoTagHw ∧ v = s.config.hwVersion) ∨ (tag = s.config.infoTagFw ∧ v = s.config.fwVersion) ∨
       (tag = s.config.infoTagDate ∧ v = s.config.buildDate) ∨
       (tag = s.config.infoTagId ∧ v = s.cfg.moduleAddress.setWidth 32) ∨
       (tag = s.config.infoTagType ∧ v = s.config.moduleType.setWidth 32)) →
      exec (.rxInfoGet src tag) s = .next { s with
        out := s.out ++ [.tx (.infoAck s.cfg.networkId tag v), status .handled] }) ∧
    (tag ∉ s.config.infoTags →
      exec (.rxInfoGet src tag) s = .next { s with out := s.out ++ [status .unhandled] })

/-- `RX_CFG_GET` (R277): the field that `tag[31:16]` selects, as a 16-bit value; an unknown tag is UNHANDLED. -/
def Obligations.ConfigGetAnswers : Prop :=
  ∀ (src : Half) (tag : BitVec 32) (s : State), Foreign s src →
    (∀ v : Half,
      ((tag.extractLsb' 16 16 = 0x0022 ∧ v = (if s.cfg.sendChannel2Data then 1 else 0)) ∨
       (tag.extractLsb' 16 16 = 0x0040 ∧ v = s.cfg.trackSetCurrentThreshold) ∨
       (tag.extractLsb' 16 16 = 0x0050 ∧ v = s.cfg.trackFreeToSetDelay) ∨
       (tag.extractLsb' 16 16 = 0x0051 ∧ v = s.cfg.trackSetToFreeDelay)) →
      exec (.rxCfgGet src tag) s = .next { s with
        out := s.out ++ [.tx (.cfgAck s.cfg.networkId tag v), status .handled] }) ∧
    (tag.extractLsb' 16 16 ∉ ([0x0022, 0x0040, 0x0050, 0x0051] : List Half) →
      exec (.rxCfgGet src tag) s = .next { s with out := s.out ++ [status .unhandled] })

/-- `RX_CFG_SET` (R280): the selected field written (the flag as `value != 0`), both thresholds recomputed if it is the
current rating, the record persisted, the value as received echoed; an unknown tag changes nothing. -/
def Obligations.ConfigSetWritesPersistsAcknowledges : Prop :=
  ∀ (src : Half) (tag : BitVec 32) (value : Half) (s : State), Foreign s src →
    (∀ cfg' : ModuleConfig,
      ((tag.extractLsb' 16 16 = 0x0022 ∧ cfg' = { s.cfg with sendChannel2Data := decide (value ≠ 0) }) ∨
       (tag.extractLsb' 16 16 = 0x0050 ∧ cfg' = { s.cfg with trackFreeToSetDelay := value }) ∨
       (tag.extractLsb' 16 16 = 0x0051 ∧ cfg' = { s.cfg with trackSetToFreeDelay := value })) →
      exec (.rxCfgSet src tag value) s = .next { s with
        cfg := cfg'
        out := s.out ++ [.persist (encodeRecord cfg'), .tx (.cfgAck s.cfg.networkId tag value), status .handled] }) ∧
    (tag.extractLsb' 16 16 = 0x0040 →
      exec (.rxCfgSet src tag value) s = .next { s with
        cfg := { s.cfg with trackSetCurrentThreshold := value }
        thr := { thresholdVoltage := saturated s.config s.config.kNum s.config.kDen value
                 trackSetVoltage := saturated s.config s.config.k2Num s.config.k2Den value }
        out := s.out ++ [.persist (encodeRecord { s.cfg with trackSetCurrentThreshold := value }),
          .tx (.cfgAck s.cfg.networkId tag value), status .handled] }) ∧
    (tag.extractLsb' 16 16 ∉ ([0x0022, 0x0040, 0x0050, 0x0051] : List Half) →
      exec (.rxCfgSet src tag value) s = .next { s with out := s.out ++ [status .unhandled] })

/-- `RX_ACCDATA_GET` (R283): type 0x11 answers slots 0 and 1, type 0x12 slots 2 and 3 of the port; a query that is not
for this module, or names no port or type it knows, is UNHANDLED. -/
def Obligations.AccessoryDataQuery : Prop :=
  ∀ (src id : Half) (port type : Byte) (s : State), Foreign s src →
    (∀ (p : PortIdx) (lo hi : SlotIdx), IdMatches s id → port.toNat = p.val →
      (type = 0x11 ∧ lo = 0 ∧ hi = 1) ∨ (type = 0x12 ∧ lo = 2 ∧ hi = 3) →
      exec (.rxAccdataGet src id port type) s = .next { s with
        out := s.out ++ [.tx (.accData s.cfg.networkId s.cfg.moduleAddress port type
          (slotWord s.slots[p][lo]) (slotWord s.slots[p][hi])), status .handled] }) ∧
    (¬ IdMatches s id ∨ 8 ≤ port.toNat ∨ (type ≠ 0x11 ∧ type ≠ 0x12) →
      exec (.rxAccdataGet src id port type) s = .next { s with out := s.out ++ [status .unhandled] })

/-- `RX_PORT6_GET` (R285): the reported state of the port, which while a report is pending is the opposite of the raw
one (R23); a query not for this module, or of another port or type, is UNHANDLED. -/
def Obligations.OccupancyQuery : Prop :=
  ∀ (src id : Half) (port type : Byte) (s : State), Foreign s src →
    (∀ p : PortIdx, IdMatches s id → port.toNat = p.val → type = 0x01 →
      exec (.rxPort6Get src id port type) s = .next { s with
        out := s.out ++ [.tx (.port6 s.cfg.networkId s.cfg.moduleAddress port 0x01
          (if s.ports[p].state = s.ports[p].reported then 0x0001 else 0x0000)), status .handled] }) ∧
    (¬ IdMatches s id ∨ 8 ≤ port.toNat ∨ type ≠ 0x01 →
      exec (.rxPort6Get src id port type) s = .next { s with out := s.out ++ [status .unhandled] })

/-- `RX_SETADDR` (R290): inside the programming window the address is set, the window closed, the record persisted;
outside it nothing changes. -/
def Obligations.SetAddressNeedsTheWindow : Prop :=
  ∀ (src a : Half) (s : State), Foreign s src →
    (s.prog.active = true → exec (.rxSetaddr src a) s = .next { s with
      cfg := { s.cfg with moduleAddress := a }
      prog := { s.prog with active := false }
      out := s.out ++ [.persist (encodeRecord { s.cfg with moduleAddress := a }), status .handled] }) ∧
    (s.prog.active = false →
      exec (.rxSetaddr src a) s = .next { s with out := s.out ++ [status .unhandled] })

/-- `RX_OTHER` (R292): UNHANDLED after the prologue. -/
def Obligations.OtherMessagesAreUnhandled : Prop :=
  ∀ (src : Half) (s : State), Foreign s src →
    exec (.rxOther src) s = .next { s with out := s.out ++ [status .unhandled] }

/-- `PROGOPEN` (R288): opens the programming window or restarts its time; IGNORED before `BOOT`. -/
def Obligations.ProgopenOpensTheWindow : Prop :=
  ∀ s : State,
    (s.booted = true → exec .progopen s = .next { s with
      prog := { active := true, openedAt := s.inp.now }, out := s.out ++ [status .done] }) ∧
    (s.booted = false → exec .progopen s = .next { s with out := s.out ++ [status .ignored] })

/-- `PROGEXP` (R291): closes a window whose time has run out, and does nothing else. -/
def Obligations.ProgexpClosesTheWindow : Prop :=
  ∀ s : State,
    (s.prog.active = true → s.config.progWindowMs.toNat ≤ since s.inp.now s.prog.openedAt →
      exec .progexp s = .next { s with prog := { s.prog with active := false } }) ∧
    (s.prog.active = false ∨ since s.inp.now s.prog.openedAt < s.config.progWindowMs.toNat →
      exec .progexp s = .next s)

/-- `KEEPALIVE` (R296): a ping iff the interval since the last one has elapsed. -/
def Obligations.KeepaliveSendsWhenDue : Prop :=
  ∀ s : State,
    (s.config.pingIntervalMs.toNat ≤ since s.inp.now s.resp.lastPingTime → exec .keepalive s = .next { s with
      resp := { lastPingTime := s.inp.now }, out := s.out ++ [pingOf s.cfg.networkId s.sess s.config] }) ∧
    (since s.inp.now s.resp.lastPingTime < s.config.pingIntervalMs.toNat → exec .keepalive s = .next s)

/-! ### Boot -/

/-- `BOOT` (R352, R353, R354): a present record with a network id that is no sentinel is loaded field by field without
output; otherwise the first-boot configuration is made and persisted; a second `BOOT` is IGNORED. -/
def Obligations.BootLoadsOrInitialises : Prop :=
  ∀ s : State,
    (s.booted = false → s.inp.storePresent = true → s.inp.storeRec.extractLsb' 0 16 ≠ 0x0000 →
      s.inp.storeRec.extractLsb' 0 16 ≠ 0xFFFF →
      exec .boot s = .next { bootedWith (loadedConfig s.inp.storeRec) s with out := s.out ++ [status .done] }) ∧
    (s.booted = false → s.inp.storePresent = false ∨ s.inp.storeRec.extractLsb' 0 16 = 0x0000 ∨
      s.inp.storeRec.extractLsb' 0 16 = 0xFFFF →
      exec .boot s = .next { bootedWith (defaultConfig s.config s.inp.rand) s with
        out := s.out ++ [.persist (encodeRecord (defaultConfig s.config s.inp.rand)), status .done] }) ∧
    (s.booted = true → exec .boot s = .next { s with out := s.out ++ [status .ignored] })

/-! ### A host that breaks its duties -/

/-- Whatever the host does, every step answers a next state (R362: "nothing is undefined inside the CORE"), and what is
no accepted command and no `rst` changes no register. Which events a step takes is the model's choice (log 1, log 19). -/
def Obligations.HostCannotStopTheCore : Prop :=
  (∀ s : State, ∃ t, step s = .next t) ∧
  ∀ (s t : State), step s = .next t →
    (∀ w inp rest, s.host ≠ .command w inp :: rest) → (∀ rest, s.host ≠ .rst :: rest) →
    t = { s with buf := t.buf, out := t.out, host := t.host }
end

