-- ==== Sys2Proof/Laws/State.lean ====
section
/-! SUPPORT. One lemma per field per update of State, true by rfl, so that no proof unfolds a record update. -/

namespace Sys2Proof.Machine

set_option Elab.async false

/-! `setPort`: one port register group -/
@[simp] theorem setPort_config (s : State) (p : PortIdx) (pr : PortRegs) : (s.setPort p pr).config = s.config := rfl
@[simp] theorem setPort_booted (s : State) (p : PortIdx) (pr : PortRegs) : (s.setPort p pr).booted = s.booted := rfl
@[simp] theorem setPort_ports (s : State) (p : PortIdx) (pr : PortRegs) : (s.setPort p pr).ports = s.ports.set p.val pr p.isLt := rfl
@[simp] theorem setPort_slots (s : State) (p : PortIdx) (pr : PortRegs) : (s.setPort p pr).slots = s.slots := rfl
@[simp] theorem setPort_chans (s : State) (p : PortIdx) (pr : PortRegs) : (s.setPort p pr).chans = s.chans := rfl
@[simp] theorem setPort_cfg (s : State) (p : PortIdx) (pr : PortRegs) : (s.setPort p pr).cfg = s.cfg := rfl
@[simp] theorem setPort_thr (s : State) (p : PortIdx) (pr : PortRegs) : (s.setPort p pr).thr = s.thr := rfl
@[simp] theorem setPort_sess (s : State) (p : PortIdx) (pr : PortRegs) : (s.setPort p pr).sess = s.sess := rfl
@[simp] theorem setPort_resp (s : State) (p : PortIdx) (pr : PortRegs) : (s.setPort p pr).resp = s.resp := rfl
@[simp] theorem setPort_prog (s : State) (p : PortIdx) (pr : PortRegs) : (s.setPort p pr).prog = s.prog := rfl
@[simp] theorem setPort_sched (s : State) (p : PortIdx) (pr : PortRegs) : (s.setPort p pr).sched = s.sched := rfl
@[simp] theorem setPort_buf (s : State) (p : PortIdx) (pr : PortRegs) : (s.setPort p pr).buf = s.buf := rfl
@[simp] theorem setPort_inp (s : State) (p : PortIdx) (pr : PortRegs) : (s.setPort p pr).inp = s.inp := rfl
@[simp] theorem setPort_out (s : State) (p : PortIdx) (pr : PortRegs) : (s.setPort p pr).out = s.out := rfl
@[simp] theorem setPort_host (s : State) (p : PortIdx) (pr : PortRegs) : (s.setPort p pr).host = s.host := rfl

/-! `setSlots`: the four slots of a port -/
@[simp] theorem setSlots_config (s : State) (p : PortIdx) (sl : Vector Slot 4) : (s.setSlots p sl).config = s.config := rfl
@[simp] theorem setSlots_booted (s : State) (p : PortIdx) (sl : Vector Slot 4) : (s.setSlots p sl).booted = s.booted := rfl
@[simp] theorem setSlots_ports (s : State) (p : PortIdx) (sl : Vector Slot 4) : (s.setSlots p sl).ports = s.ports := rfl
@[simp] theorem setSlots_slots (s : State) (p : PortIdx) (sl : Vector Slot 4) : (s.setSlots p sl).slots = s.slots.set p.val sl p.isLt := rfl
@[simp] theorem setSlots_chans (s : State) (p : PortIdx) (sl : Vector Slot 4) : (s.setSlots p sl).chans = s.chans := rfl
@[simp] theorem setSlots_cfg (s : State) (p : PortIdx) (sl : Vector Slot 4) : (s.setSlots p sl).cfg = s.cfg := rfl
@[simp] theorem setSlots_thr (s : State) (p : PortIdx) (sl : Vector Slot 4) : (s.setSlots p sl).thr = s.thr := rfl
@[simp] theorem setSlots_sess (s : State) (p : PortIdx) (sl : Vector Slot 4) : (s.setSlots p sl).sess = s.sess := rfl
@[simp] theorem setSlots_resp (s : State) (p : PortIdx) (sl : Vector Slot 4) : (s.setSlots p sl).resp = s.resp := rfl
@[simp] theorem setSlots_prog (s : State) (p : PortIdx) (sl : Vector Slot 4) : (s.setSlots p sl).prog = s.prog := rfl
@[simp] theorem setSlots_sched (s : State) (p : PortIdx) (sl : Vector Slot 4) : (s.setSlots p sl).sched = s.sched := rfl
@[simp] theorem setSlots_buf (s : State) (p : PortIdx) (sl : Vector Slot 4) : (s.setSlots p sl).buf = s.buf := rfl
@[simp] theorem setSlots_inp (s : State) (p : PortIdx) (sl : Vector Slot 4) : (s.setSlots p sl).inp = s.inp := rfl
@[simp] theorem setSlots_out (s : State) (p : PortIdx) (sl : Vector Slot 4) : (s.setSlots p sl).out = s.out := rfl
@[simp] theorem setSlots_host (s : State) (p : PortIdx) (sl : Vector Slot 4) : (s.setSlots p sl).host = s.host := rfl

/-! `setChan`: the channel state of a port -/
@[simp] theorem setChan_config (s : State) (p : PortIdx) (ch : Chan) : (s.setChan p ch).config = s.config := rfl
@[simp] theorem setChan_booted (s : State) (p : PortIdx) (ch : Chan) : (s.setChan p ch).booted = s.booted := rfl
@[simp] theorem setChan_ports (s : State) (p : PortIdx) (ch : Chan) : (s.setChan p ch).ports = s.ports := rfl
@[simp] theorem setChan_slots (s : State) (p : PortIdx) (ch : Chan) : (s.setChan p ch).slots = s.slots := rfl
@[simp] theorem setChan_chans (s : State) (p : PortIdx) (ch : Chan) : (s.setChan p ch).chans = s.chans.set p.val ch p.isLt := rfl
@[simp] theorem setChan_cfg (s : State) (p : PortIdx) (ch : Chan) : (s.setChan p ch).cfg = s.cfg := rfl
@[simp] theorem setChan_thr (s : State) (p : PortIdx) (ch : Chan) : (s.setChan p ch).thr = s.thr := rfl
@[simp] theorem setChan_sess (s : State) (p : PortIdx) (ch : Chan) : (s.setChan p ch).sess = s.sess := rfl
@[simp] theorem setChan_resp (s : State) (p : PortIdx) (ch : Chan) : (s.setChan p ch).resp = s.resp := rfl
@[simp] theorem setChan_prog (s : State) (p : PortIdx) (ch : Chan) : (s.setChan p ch).prog = s.prog := rfl
@[simp] theorem setChan_sched (s : State) (p : PortIdx) (ch : Chan) : (s.setChan p ch).sched = s.sched := rfl
@[simp] theorem setChan_buf (s : State) (p : PortIdx) (ch : Chan) : (s.setChan p ch).buf = s.buf := rfl
@[simp] theorem setChan_inp (s : State) (p : PortIdx) (ch : Chan) : (s.setChan p ch).inp = s.inp := rfl
@[simp] theorem setChan_out (s : State) (p : PortIdx) (ch : Chan) : (s.setChan p ch).out = s.out := rfl
@[simp] theorem setChan_host (s : State) (p : PortIdx) (ch : Chan) : (s.setChan p ch).host = s.host := rfl

/-! `emit`: output records appended -/
@[simp] theorem emit_config (s : State) (rs : List Output) : (s.emit rs).config = s.config := rfl
@[simp] theorem emit_booted (s : State) (rs : List Output) : (s.emit rs).booted = s.booted := rfl
@[simp] theorem emit_ports (s : State) (rs : List Output) : (s.emit rs).ports = s.ports := rfl
@[simp] theorem emit_slots (s : State) (rs : List Output) : (s.emit rs).slots = s.slots := rfl
@[simp] theorem emit_chans (s : State) (rs : List Output) : (s.emit rs).chans = s.chans := rfl
@[simp] theorem emit_cfg (s : State) (rs : List Output) : (s.emit rs).cfg = s.cfg := rfl
@[simp] theorem emit_thr (s : State) (rs : List Output) : (s.emit rs).thr = s.thr := rfl
@[simp] theorem emit_sess (s : State) (rs : List Output) : (s.emit rs).sess = s.sess := rfl
@[simp] theorem emit_resp (s : State) (rs : List Output) : (s.emit rs).resp = s.resp := rfl
@[simp] theorem emit_prog (s : State) (rs : List Output) : (s.emit rs).prog = s.prog := rfl
@[simp] theorem emit_sched (s : State) (rs : List Output) : (s.emit rs).sched = s.sched := rfl
@[simp] theorem emit_buf (s : State) (rs : List Output) : (s.emit rs).buf = s.buf := rfl
@[simp] theorem emit_inp (s : State) (rs : List Output) : (s.emit rs).inp = s.inp := rfl
@[simp] theorem emit_out (s : State) (rs : List Output) : (s.emit rs).out = s.out ++ rs := rfl
@[simp] theorem emit_host (s : State) (rs : List Output) : (s.emit rs).host = s.host := rfl

/-! `finish`: the result record appended -/
@[simp] theorem finish_config (s : State) (st : Status) (v : ResultValue) : (s.finish st v).config = s.config := rfl
@[simp] theorem finish_booted (s : State) (st : Status) (v : ResultValue) : (s.finish st v).booted = s.booted := rfl
@[simp] theorem finish_ports (s : State) (st : Status) (v : ResultValue) : (s.finish st v).ports = s.ports := rfl
@[simp] theorem finish_slots (s : State) (st : Status) (v : ResultValue) : (s.finish st v).slots = s.slots := rfl
@[simp] theorem finish_chans (s : State) (st : Status) (v : ResultValue) : (s.finish st v).chans = s.chans := rfl
@[simp] theorem finish_cfg (s : State) (st : Status) (v : ResultValue) : (s.finish st v).cfg = s.cfg := rfl
@[simp] theorem finish_thr (s : State) (st : Status) (v : ResultValue) : (s.finish st v).thr = s.thr := rfl
@[simp] theorem finish_sess (s : State) (st : Status) (v : ResultValue) : (s.finish st v).sess = s.sess := rfl
@[simp] theorem finish_resp (s : State) (st : Status) (v : ResultValue) : (s.finish st v).resp = s.resp := rfl
@[simp] theorem finish_prog (s : State) (st : Status) (v : ResultValue) : (s.finish st v).prog = s.prog := rfl
@[simp] theorem finish_sched (s : State) (st : Status) (v : ResultValue) : (s.finish st v).sched = s.sched := rfl
@[simp] theorem finish_buf (s : State) (st : Status) (v : ResultValue) : (s.finish st v).buf = s.buf := rfl
@[simp] theorem finish_inp (s : State) (st : Status) (v : ResultValue) : (s.finish st v).inp = s.inp := rfl
@[simp] theorem finish_out (s : State) (st : Status) (v : ResultValue) : (s.finish st v).out = s.out ++ [result st v] := rfl
@[simp] theorem finish_host (s : State) (st : Status) (v : ResultValue) : (s.finish st v).host = s.host := rfl

/-! `emitPing`: a ping and the keep-alive stamp (R264) -/
@[simp] theorem emitPing_config (s : State) : (emitPing s).config = s.config := rfl
@[simp] theorem emitPing_booted (s : State) : (emitPing s).booted = s.booted := rfl
@[simp] theorem emitPing_ports (s : State) : (emitPing s).ports = s.ports := rfl
@[simp] theorem emitPing_slots (s : State) : (emitPing s).slots = s.slots := rfl
@[simp] theorem emitPing_chans (s : State) : (emitPing s).chans = s.chans := rfl
@[simp] theorem emitPing_cfg (s : State) : (emitPing s).cfg = s.cfg := rfl
@[simp] theorem emitPing_thr (s : State) : (emitPing s).thr = s.thr := rfl
@[simp] theorem emitPing_sess (s : State) : (emitPing s).sess = s.sess := rfl
@[simp] theorem emitPing_resp (s : State) : (emitPing s).resp = { lastPingTime := s.inp.now } := rfl
@[simp] theorem emitPing_prog (s : State) : (emitPing s).prog = s.prog := rfl
@[simp] theorem emitPing_sched (s : State) : (emitPing s).sched = s.sched := rfl
@[simp] theorem emitPing_buf (s : State) : (emitPing s).buf = s.buf := rfl
@[simp] theorem emitPing_inp (s : State) : (emitPing s).inp = s.inp := rfl
@[simp] theorem emitPing_out (s : State) : (emitPing s).out = s.out ++ [.tx (pingRecord s)] := rfl
@[simp] theorem emitPing_host (s : State) : (emitPing s).host = s.host := rfl

/-! `emitPersist`: the record persisted (R64) -/
@[simp] theorem emitPersist_config (s : State) : (emitPersist s).config = s.config := rfl
@[simp] theorem emitPersist_booted (s : State) : (emitPersist s).booted = s.booted := rfl
@[simp] theorem emitPersist_ports (s : State) : (emitPersist s).ports = s.ports := rfl
@[simp] theorem emitPersist_slots (s : State) : (emitPersist s).slots = s.slots := rfl
@[simp] theorem emitPersist_chans (s : State) : (emitPersist s).chans = s.chans := rfl
@[simp] theorem emitPersist_cfg (s : State) : (emitPersist s).cfg = s.cfg := rfl
@[simp] theorem emitPersist_thr (s : State) : (emitPersist s).thr = s.thr := rfl
@[simp] theorem emitPersist_sess (s : State) : (emitPersist s).sess = s.sess := rfl
@[simp] theorem emitPersist_resp (s : State) : (emitPersist s).resp = s.resp := rfl
@[simp] theorem emitPersist_prog (s : State) : (emitPersist s).prog = s.prog := rfl
@[simp] theorem emitPersist_sched (s : State) : (emitPersist s).sched = s.sched := rfl
@[simp] theorem emitPersist_buf (s : State) : (emitPersist s).buf = s.buf := rfl
@[simp] theorem emitPersist_inp (s : State) : (emitPersist s).inp = s.inp := rfl
@[simp] theorem emitPersist_out (s : State) : (emitPersist s).out = s.out ++ [.persist (encodeRecord s.cfg)] := rfl
@[simp] theorem emitPersist_host (s : State) : (emitPersist s).host = s.host := rfl

/-! `collide`: a new network id (R266) -/
@[simp] theorem collide_config (s : State) : (collide s).config = s.config := rfl
@[simp] theorem collide_booted (s : State) : (collide s).booted = s.booted := rfl
@[simp] theorem collide_ports (s : State) : (collide s).ports = s.ports := rfl
@[simp] theorem collide_slots (s : State) : (collide s).slots = s.slots := rfl
@[simp] theorem collide_chans (s : State) : (collide s).chans = s.chans := rfl
@[simp] theorem collide_cfg (s : State) : (collide s).cfg = { s.cfg with networkId := drawNetworkId s.config s.inp.rand } := rfl
@[simp] theorem collide_thr (s : State) : (collide s).thr = s.thr := rfl
@[simp] theorem collide_sess (s : State) : (collide s).sess = s.sess := rfl
@[simp] theorem collide_resp (s : State) : (collide s).resp = { lastPingTime := s.inp.now } := rfl
@[simp] theorem collide_prog (s : State) : (collide s).prog = s.prog := rfl
@[simp] theorem collide_sched (s : State) : (collide s).sched = s.sched := rfl
@[simp] theorem collide_buf (s : State) : (collide s).buf = s.buf := rfl
@[simp] theorem collide_inp (s : State) : (collide s).inp = s.inp := rfl
@[simp] theorem collide_out (s : State) : (collide s).out = s.out ++ [.persist (encodeRecord { s.cfg with networkId := drawNetworkId s.config s.inp.rand })] ++
      [.tx (pingRecord { s with cfg := { s.cfg with networkId := drawNetworkId s.config s.inp.rand } })] := rfl
@[simp] theorem collide_host (s : State) : (collide s).host = s.host := rfl

/-! `adoptMaster`: a master adopted (R270) -/
@[simp] theorem adoptMaster_config (s : State) (m : Half) : (adoptMaster s m).config = s.config := rfl
@[simp] theorem adoptMaster_booted (s : State) (m : Half) : (adoptMaster s m).booted = s.booted := rfl
@[simp] theorem adoptMaster_ports (s : State) (m : Half) : (adoptMaster s m).ports = s.ports := rfl
@[simp] theorem adoptMaster_slots (s : State) (m : Half) : (adoptMaster s m).slots = s.slots := rfl
@[simp] theorem adoptMaster_chans (s : State) (m : Half) : (adoptMaster s m).chans = s.chans := rfl
@[simp] theorem adoptMaster_cfg (s : State) (m : Half) : (adoptMaster s m).cfg = s.cfg := rfl
@[simp] theorem adoptMaster_thr (s : State) (m : Half) : (adoptMaster s m).thr = s.thr := rfl
@[simp] theorem adoptMaster_sess (s : State) (m : Half) : (adoptMaster s m).sess = { hasMaster := true, masterNetworkId := m, sessionId := 0 } := rfl
@[simp] theorem adoptMaster_resp (s : State) (m : Half) : (adoptMaster s m).resp = s.resp := rfl
@[simp] theorem adoptMaster_prog (s : State) (m : Half) : (adoptMaster s m).prog = s.prog := rfl
@[simp] theorem adoptMaster_sched (s : State) (m : Half) : (adoptMaster s m).sched = s.sched := rfl
@[simp] theorem adoptMaster_buf (s : State) (m : Half) : (adoptMaster s m).buf = s.buf := rfl
@[simp] theorem adoptMaster_inp (s : State) (m : Half) : (adoptMaster s m).inp = s.inp := rfl
@[simp] theorem adoptMaster_out (s : State) (m : Half) : (adoptMaster s m).out = s.out := rfl
@[simp] theorem adoptMaster_host (s : State) (m : Half) : (adoptMaster s m).host = s.host := rfl

/-! `setField`: a configuration field written (R280) -/
@[simp] theorem setField_config (s : State) (f : CfgField) (v : Half) : (setField s f v).config = s.config := rfl
@[simp] theorem setField_booted (s : State) (f : CfgField) (v : Half) : (setField s f v).booted = s.booted := rfl
@[simp] theorem setField_ports (s : State) (f : CfgField) (v : Half) : (setField s f v).ports = s.ports := rfl
@[simp] theorem setField_slots (s : State) (f : CfgField) (v : Half) : (setField s f v).slots = s.slots := rfl
@[simp] theorem setField_chans (s : State) (f : CfgField) (v : Half) : (setField s f v).chans = s.chans := rfl
@[simp] theorem setField_cfg (s : State) (f : CfgField) (v : Half) : (setField s f v).cfg = writeField s.cfg f v := rfl
@[simp] theorem setField_thr (s : State) (f : CfgField) (v : Half) : (setField s f v).thr = if f = .trackSetCurrentThreshold then thresholdsOf s.config v else s.thr := rfl
@[simp] theorem setField_sess (s : State) (f : CfgField) (v : Half) : (setField s f v).sess = s.sess := rfl
@[simp] theorem setField_resp (s : State) (f : CfgField) (v : Half) : (setField s f v).resp = s.resp := rfl
@[simp] theorem setField_prog (s : State) (f : CfgField) (v : Half) : (setField s f v).prog = s.prog := rfl
@[simp] theorem setField_sched (s : State) (f : CfgField) (v : Half) : (setField s f v).sched = s.sched := rfl
@[simp] theorem setField_buf (s : State) (f : CfgField) (v : Half) : (setField s f v).buf = s.buf := rfl
@[simp] theorem setField_inp (s : State) (f : CfgField) (v : Half) : (setField s f v).inp = s.inp := rfl
@[simp] theorem setField_out (s : State) (f : CfgField) (v : Half) : (setField s f v).out = s.out := rfl
@[simp] theorem setField_host (s : State) (f : CfgField) (v : Half) : (setField s f v).host = s.host := rfl

/-! `loadConfig`: the registers BOOT writes (R352) -/
@[simp] theorem loadConfig_config (s : State) (cfg : ModuleConfig) : (loadConfig cfg s).config = s.config := rfl
@[simp] theorem loadConfig_booted (s : State) (cfg : ModuleConfig) : (loadConfig cfg s).booted = true := rfl
@[simp] theorem loadConfig_ports (s : State) (cfg : ModuleConfig) : (loadConfig cfg s).ports = Vector.ofFn fun p => { s.ports[p] with voltageOffset := cfg.voltageOffset[p] } := rfl
@[simp] theorem loadConfig_slots (s : State) (cfg : ModuleConfig) : (loadConfig cfg s).slots = s.slots := rfl
@[simp] theorem loadConfig_chans (s : State) (cfg : ModuleConfig) : (loadConfig cfg s).chans = s.chans := rfl
@[simp] theorem loadConfig_cfg (s : State) (cfg : ModuleConfig) : (loadConfig cfg s).cfg = cfg := rfl
@[simp] theorem loadConfig_thr (s : State) (cfg : ModuleConfig) : (loadConfig cfg s).thr = thresholdsOf s.config cfg.trackSetCurrentThreshold := rfl
@[simp] theorem loadConfig_sess (s : State) (cfg : ModuleConfig) : (loadConfig cfg s).sess = s.sess := rfl
@[simp] theorem loadConfig_resp (s : State) (cfg : ModuleConfig) : (loadConfig cfg s).resp = { lastPingTime := s.inp.now } := rfl
@[simp] theorem loadConfig_prog (s : State) (cfg : ModuleConfig) : (loadConfig cfg s).prog = s.prog := rfl
@[simp] theorem loadConfig_sched (s : State) (cfg : ModuleConfig) : (loadConfig cfg s).sched = s.sched := rfl
@[simp] theorem loadConfig_buf (s : State) (cfg : ModuleConfig) : (loadConfig cfg s).buf = s.buf := rfl
@[simp] theorem loadConfig_inp (s : State) (cfg : ModuleConfig) : (loadConfig cfg s).inp = s.inp := rfl
@[simp] theorem loadConfig_out (s : State) (cfg : ModuleConfig) : (loadConfig cfg s).out = s.out := rfl
@[simp] theorem loadConfig_host (s : State) (cfg : ModuleConfig) : (loadConfig cfg s).host = s.host := rfl

/-! `slotupd`: the slots of one port (R190) -/
@[simp] theorem slotupd_config (s : State) (p : PortIdx) (a : BitVec 14) (d : BitVec 2) : (slotupd p a d s).config = s.config := rfl
@[simp] theorem slotupd_booted (s : State) (p : PortIdx) (a : BitVec 14) (d : BitVec 2) : (slotupd p a d s).booted = s.booted := rfl
@[simp] theorem slotupd_ports (s : State) (p : PortIdx) (a : BitVec 14) (d : BitVec 2) : (slotupd p a d s).ports = s.ports := rfl
@[simp] theorem slotupd_slots (s : State) (p : PortIdx) (a : BitVec 14) (d : BitVec 2) : (slotupd p a d s).slots = s.slots.set p.val (updateSlots s.slots[p] a d s.inp.now) p.isLt := rfl
@[simp] theorem slotupd_chans (s : State) (p : PortIdx) (a : BitVec 14) (d : BitVec 2) : (slotupd p a d s).chans = s.chans := rfl
@[simp] theorem slotupd_cfg (s : State) (p : PortIdx) (a : BitVec 14) (d : BitVec 2) : (slotupd p a d s).cfg = s.cfg := rfl
@[simp] theorem slotupd_thr (s : State) (p : PortIdx) (a : BitVec 14) (d : BitVec 2) : (slotupd p a d s).thr = s.thr := rfl
@[simp] theorem slotupd_sess (s : State) (p : PortIdx) (a : BitVec 14) (d : BitVec 2) : (slotupd p a d s).sess = s.sess := rfl
@[simp] theorem slotupd_resp (s : State) (p : PortIdx) (a : BitVec 14) (d : BitVec 2) : (slotupd p a d s).resp = s.resp := rfl
@[simp] theorem slotupd_prog (s : State) (p : PortIdx) (a : BitVec 14) (d : BitVec 2) : (slotupd p a d s).prog = s.prog := rfl
@[simp] theorem slotupd_sched (s : State) (p : PortIdx) (a : BitVec 14) (d : BitVec 2) : (slotupd p a d s).sched = s.sched := rfl
@[simp] theorem slotupd_buf (s : State) (p : PortIdx) (a : BitVec 14) (d : BitVec 2) : (slotupd p a d s).buf = s.buf := rfl
@[simp] theorem slotupd_inp (s : State) (p : PortIdx) (a : BitVec 14) (d : BitVec 2) : (slotupd p a d s).inp = s.inp := rfl
@[simp] theorem slotupd_out (s : State) (p : PortIdx) (a : BitVec 14) (d : BitVec 2) : (slotupd p a d s).out = s.out := rfl
@[simp] theorem slotupd_host (s : State) (p : PortIdx) (a : BitVec 14) (d : BitVec 2) : (slotupd p a d s).host = s.host := rfl

/-! `slotexp`: every slot (R193) -/
@[simp] theorem slotexp_config (s : State) : (slotexp s).config = s.config := rfl
@[simp] theorem slotexp_booted (s : State) : (slotexp s).booted = s.booted := rfl
@[simp] theorem slotexp_ports (s : State) : (slotexp s).ports = s.ports := rfl
@[simp] theorem slotexp_slots (s : State) : (slotexp s).slots = Vector.ofFn fun p => Vector.ofFn fun k => expireSlot s.config s.inp.now s.slots[p][k] := rfl
@[simp] theorem slotexp_chans (s : State) : (slotexp s).chans = s.chans := rfl
@[simp] theorem slotexp_cfg (s : State) : (slotexp s).cfg = s.cfg := rfl
@[simp] theorem slotexp_thr (s : State) : (slotexp s).thr = s.thr := rfl
@[simp] theorem slotexp_sess (s : State) : (slotexp s).sess = s.sess := rfl
@[simp] theorem slotexp_resp (s : State) : (slotexp s).resp = s.resp := rfl
@[simp] theorem slotexp_prog (s : State) : (slotexp s).prog = s.prog := rfl
@[simp] theorem slotexp_sched (s : State) : (slotexp s).sched = s.sched := rfl
@[simp] theorem slotexp_buf (s : State) : (slotexp s).buf = s.buf := rfl
@[simp] theorem slotexp_inp (s : State) : (slotexp s).inp = s.inp := rfl
@[simp] theorem slotexp_out (s : State) : (slotexp s).out = s.out := rfl
@[simp] theorem slotexp_host (s : State) : (slotexp s).host = s.host := rfl

/-! `addrreport`: the address notifications (R195) -/
@[simp] theorem addrreport_config (s : State) : (addrreport s).config = s.config := rfl
@[simp] theorem addrreport_booted (s : State) : (addrreport s).booted = s.booted := rfl
@[simp] theorem addrreport_ports (s : State) : (addrreport s).ports = s.ports := rfl
@[simp] theorem addrreport_slots (s : State) : (addrreport s).slots = Vector.ofFn fun p => reportedSlots s.slots[p] := rfl
@[simp] theorem addrreport_chans (s : State) : (addrreport s).chans = s.chans := rfl
@[simp] theorem addrreport_cfg (s : State) : (addrreport s).cfg = s.cfg := rfl
@[simp] theorem addrreport_thr (s : State) : (addrreport s).thr = s.thr := rfl
@[simp] theorem addrreport_sess (s : State) : (addrreport s).sess = s.sess := rfl
@[simp] theorem addrreport_resp (s : State) : (addrreport s).resp = s.resp := rfl
@[simp] theorem addrreport_prog (s : State) : (addrreport s).prog = s.prog := rfl
@[simp] theorem addrreport_sched (s : State) : (addrreport s).sched = s.sched := rfl
@[simp] theorem addrreport_buf (s : State) : (addrreport s).buf = s.buf := rfl
@[simp] theorem addrreport_inp (s : State) : (addrreport s).inp = s.inp := rfl
@[simp] theorem addrreport_out (s : State) : (addrreport s).out = s.out ++ portList.flatMap (addrReportRecords s) := rfl
@[simp] theorem addrreport_host (s : State) : (addrreport s).host = s.host := rfl

/-! `occdeb`: the occupancy announcements (R214) -/
@[simp] theorem occdeb_config (s : State) : (occdeb s).config = s.config := rfl
@[simp] theorem occdeb_booted (s : State) : (occdeb s).booted = s.booted := rfl
@[simp] theorem occdeb_ports (s : State) : (occdeb s).ports = Vector.ofFn fun p => announcePort s.cfg s.inp.now s.ports[p] := rfl
@[simp] theorem occdeb_slots (s : State) : (occdeb s).slots = s.slots := rfl
@[simp] theorem occdeb_chans (s : State) : (occdeb s).chans = s.chans := rfl
@[simp] theorem occdeb_cfg (s : State) : (occdeb s).cfg = s.cfg := rfl
@[simp] theorem occdeb_thr (s : State) : (occdeb s).thr = s.thr := rfl
@[simp] theorem occdeb_sess (s : State) : (occdeb s).sess = s.sess := rfl
@[simp] theorem occdeb_resp (s : State) : (occdeb s).resp = s.resp := rfl
@[simp] theorem occdeb_prog (s : State) : (occdeb s).prog = s.prog := rfl
@[simp] theorem occdeb_sched (s : State) : (occdeb s).sched = s.sched := rfl
@[simp] theorem occdeb_buf (s : State) : (occdeb s).buf = s.buf := rfl
@[simp] theorem occdeb_inp (s : State) : (occdeb s).inp = s.inp := rfl
@[simp] theorem occdeb_out (s : State) : (occdeb s).out = s.out ++ portList.flatMap (announceRecords s) := rfl
@[simp] theorem occdeb_host (s : State) : (occdeb s).host = s.host := rfl

/-! `occacc`: one port's accumulation (R211) -/
@[simp] theorem occacc_config (s : State) (p : PortIdx) : (occacc p s).config = s.config := rfl
@[simp] theorem occacc_booted (s : State) (p : PortIdx) : (occacc p s).booted = s.booted := rfl
@[simp] theorem occacc_ports (s : State) (p : PortIdx) : (occacc p s).ports = s.ports.set p.val ((bufWindow s s.config.csLen).foldl
      (accumulateSample s.config s.thr.trackSetVoltage.toNat s.inp.now) s.ports[p]) p.isLt := rfl
@[simp] theorem occacc_slots (s : State) (p : PortIdx) : (occacc p s).slots = s.slots := rfl
@[simp] theorem occacc_chans (s : State) (p : PortIdx) : (occacc p s).chans = s.chans := rfl
@[simp] theorem occacc_cfg (s : State) (p : PortIdx) : (occacc p s).cfg = s.cfg := rfl
@[simp] theorem occacc_thr (s : State) (p : PortIdx) : (occacc p s).thr = s.thr := rfl
@[simp] theorem occacc_sess (s : State) (p : PortIdx) : (occacc p s).sess = s.sess := rfl
@[simp] theorem occacc_resp (s : State) (p : PortIdx) : (occacc p s).resp = s.resp := rfl
@[simp] theorem occacc_prog (s : State) (p : PortIdx) : (occacc p s).prog = s.prog := rfl
@[simp] theorem occacc_sched (s : State) (p : PortIdx) : (occacc p s).sched = s.sched := rfl
@[simp] theorem occacc_buf (s : State) (p : PortIdx) : (occacc p s).buf = s.buf := rfl
@[simp] theorem occacc_inp (s : State) (p : PortIdx) : (occacc p s).inp = s.inp := rfl
@[simp] theorem occacc_out (s : State) (p : PortIdx) : (occacc p s).out = s.out := rfl
@[simp] theorem occacc_host (s : State) (p : PortIdx) : (occacc p s).host = s.host := rfl

/-! `armCapture`: a capture started (R231) -/
@[simp] theorem armCapture_config (s : State) (kind : Boundary) : (armCapture kind s).config = s.config := rfl
@[simp] theorem armCapture_booted (s : State) (kind : Boundary) : (armCapture kind s).booted = s.booted := rfl
@[simp] theorem armCapture_ports (s : State) (kind : Boundary) : (armCapture kind s).ports = s.ports := rfl
@[simp] theorem armCapture_slots (s : State) (kind : Boundary) : (armCapture kind s).slots = s.slots := rfl
@[simp] theorem armCapture_chans (s : State) (kind : Boundary) : (armCapture kind s).chans = s.chans := rfl
@[simp] theorem armCapture_cfg (s : State) (kind : Boundary) : (armCapture kind s).cfg = s.cfg := rfl
@[simp] theorem armCapture_thr (s : State) (kind : Boundary) : (armCapture kind s).thr = s.thr := rfl
@[simp] theorem armCapture_sess (s : State) (kind : Boundary) : (armCapture kind s).sess = s.sess := rfl
@[simp] theorem armCapture_resp (s : State) (kind : Boundary) : (armCapture kind s).resp = s.resp := rfl
@[simp] theorem armCapture_prog (s : State) (kind : Boundary) : (armCapture kind s).prog = s.prog := rfl
@[simp] theorem armCapture_sched (s : State) (kind : Boundary) : (armCapture kind s).sched = startCapture s.config kind s.sched := rfl
@[simp] theorem armCapture_buf (s : State) (kind : Boundary) : (armCapture kind s).buf = s.buf := rfl
@[simp] theorem armCapture_inp (s : State) (kind : Boundary) : (armCapture kind s).inp = s.inp := rfl
@[simp] theorem armCapture_out (s : State) (kind : Boundary) : (armCapture kind s).out = s.out ++ [.arm (startCapture s.config kind s.sched).capPort (startCapture s.config kind s.sched).capPurpose] := rfl
@[simp] theorem armCapture_host (s : State) (kind : Boundary) : (armCapture kind s).host = s.host := rfl

/-! `assertReset`: `rst` (R350) -/
@[simp] theorem assertReset_config (s : State) : (assertReset s).config = s.config := rfl
@[simp] theorem assertReset_booted (s : State) : (assertReset s).booted = false := rfl
@[simp] theorem assertReset_ports (s : State) : (assertReset s).ports = Vector.ofFn fun _ => PortRegs.reset := rfl
@[simp] theorem assertReset_slots (s : State) : (assertReset s).slots = Vector.ofFn fun _ => Vector.ofFn fun _ => Slot.reset := rfl
@[simp] theorem assertReset_chans (s : State) : (assertReset s).chans = Vector.ofFn fun _ => Chan.reset := rfl
@[simp] theorem assertReset_cfg (s : State) : (assertReset s).cfg = ModuleConfig.reset := rfl
@[simp] theorem assertReset_thr (s : State) : (assertReset s).thr = Thresholds.reset := rfl
@[simp] theorem assertReset_sess (s : State) : (assertReset s).sess = { hasMaster := false, masterNetworkId := 0, sessionId := 0 } := rfl
@[simp] theorem assertReset_resp (s : State) : (assertReset s).resp = { lastPingTime := 0 } := rfl
@[simp] theorem assertReset_prog (s : State) : (assertReset s).prog = { active := false, openedAt := 0 } := rfl
@[simp] theorem assertReset_sched (s : State) : (assertReset s).sched = Scheduler.reset := rfl
@[simp] theorem assertReset_buf (s : State) : (assertReset s).buf = s.buf := rfl
@[simp] theorem assertReset_inp (s : State) : (assertReset s).inp = Inputs.reset := rfl
@[simp] theorem assertReset_out (s : State) : (assertReset s).out = [] := rfl
@[simp] theorem assertReset_host (s : State) : (assertReset s).host = s.host := rfl

/-! `acceptCommand`: a command accepted (R93) -/
@[simp] theorem acceptCommand_config (s : State) (inp : Inputs) (rest : List HostEvent) : (acceptCommand inp rest s).config = s.config := rfl
@[simp] theorem acceptCommand_booted (s : State) (inp : Inputs) (rest : List HostEvent) : (acceptCommand inp rest s).booted = s.booted := rfl
@[simp] theorem acceptCommand_ports (s : State) (inp : Inputs) (rest : List HostEvent) : (acceptCommand inp rest s).ports = s.ports := rfl
@[simp] theorem acceptCommand_slots (s : State) (inp : Inputs) (rest : List HostEvent) : (acceptCommand inp rest s).slots = s.slots := rfl
@[simp] theorem acceptCommand_chans (s : State) (inp : Inputs) (rest : List HostEvent) : (acceptCommand inp rest s).chans = s.chans := rfl
@[simp] theorem acceptCommand_cfg (s : State) (inp : Inputs) (rest : List HostEvent) : (acceptCommand inp rest s).cfg = s.cfg := rfl
@[simp] theorem acceptCommand_thr (s : State) (inp : Inputs) (rest : List HostEvent) : (acceptCommand inp rest s).thr = s.thr := rfl
@[simp] theorem acceptCommand_sess (s : State) (inp : Inputs) (rest : List HostEvent) : (acceptCommand inp rest s).sess = s.sess := rfl
@[simp] theorem acceptCommand_resp (s : State) (inp : Inputs) (rest : List HostEvent) : (acceptCommand inp rest s).resp = s.resp := rfl
@[simp] theorem acceptCommand_prog (s : State) (inp : Inputs) (rest : List HostEvent) : (acceptCommand inp rest s).prog = s.prog := rfl
@[simp] theorem acceptCommand_sched (s : State) (inp : Inputs) (rest : List HostEvent) : (acceptCommand inp rest s).sched = s.sched := rfl
@[simp] theorem acceptCommand_buf (s : State) (inp : Inputs) (rest : List HostEvent) : (acceptCommand inp rest s).buf = s.buf := rfl
@[simp] theorem acceptCommand_inp (s : State) (inp : Inputs) (rest : List HostEvent) : (acceptCommand inp rest s).inp = inp := rfl
@[simp] theorem acceptCommand_out (s : State) (inp : Inputs) (rest : List HostEvent) : (acceptCommand inp rest s).out = s.out := rfl
@[simp] theorem acceptCommand_host (s : State) (inp : Inputs) (rest : List HostEvent) : (acceptCommand inp rest s).host = rest := rfl

/-! `fillBuffer`: BUF filled (R363) -/
@[simp] theorem fillBuffer_config (s : State) (l : List Half) : (fillBuffer l s).config = s.config := rfl
@[simp] theorem fillBuffer_booted (s : State) (l : List Half) : (fillBuffer l s).booted = s.booted := rfl
@[simp] theorem fillBuffer_ports (s : State) (l : List Half) : (fillBuffer l s).ports = s.ports := rfl
@[simp] theorem fillBuffer_slots (s : State) (l : List Half) : (fillBuffer l s).slots = s.slots := rfl
@[simp] theorem fillBuffer_chans (s : State) (l : List Half) : (fillBuffer l s).chans = s.chans := rfl
@[simp] theorem fillBuffer_cfg (s : State) (l : List Half) : (fillBuffer l s).cfg = s.cfg := rfl
@[simp] theorem fillBuffer_thr (s : State) (l : List Half) : (fillBuffer l s).thr = s.thr := rfl
@[simp] theorem fillBuffer_sess (s : State) (l : List Half) : (fillBuffer l s).sess = s.sess := rfl
@[simp] theorem fillBuffer_resp (s : State) (l : List Half) : (fillBuffer l s).resp = s.resp := rfl
@[simp] theorem fillBuffer_prog (s : State) (l : List Half) : (fillBuffer l s).prog = s.prog := rfl
@[simp] theorem fillBuffer_sched (s : State) (l : List Half) : (fillBuffer l s).sched = s.sched := rfl
@[simp] theorem fillBuffer_buf (s : State) (l : List Half) : (fillBuffer l s).buf = s.buf.writeSamples 0 (storedSamples s.config s.buf l) := rfl
@[simp] theorem fillBuffer_inp (s : State) (l : List Half) : (fillBuffer l s).inp = s.inp := rfl
@[simp] theorem fillBuffer_out (s : State) (l : List Half) : (fillBuffer l s).out = s.out := rfl
@[simp] theorem fillBuffer_host (s : State) (l : List Half) : (fillBuffer l s).host = s.host := rfl

/-! One element of a bank written, the others kept. -/

theorem setPort_get (s : State) (p q : PortIdx) (pr : PortRegs) :
    (s.setPort p pr).ports[q] = if p = q then pr else s.ports[q] := by
  simp [Vector.getElem_set, Fin.ext_iff]

theorem setSlots_get (s : State) (p q : PortIdx) (sl : Vector Slot 4) :
    (s.setSlots p sl).slots[q] = if p = q then sl else s.slots[q] := by
  simp [Vector.getElem_set, Fin.ext_iff]

theorem setChan_get (s : State) (p q : PortIdx) (ch : Chan) :
    (s.setChan p ch).chans[q] = if p = q then ch else s.chans[q] := by
  simp [Vector.getElem_set, Fin.ext_iff]

end Sys2Proof.Machine
end

