-- ==== Sys2Proof/Laws/Bits.lean ====
section
/-! SUPPORT. Slices of concatenations: what the packed formats (30_encoding.md R92, R99, R112) are taken apart with. -/

namespace Sys2Proof

set_option Elab.async false

/-- A slice above the low part of a concatenation is a slice of the high part. -/
theorem extract_append_high {n m : Nat} (a : BitVec n) (b : BitVec m) (lo k : Nat) (h : m ≤ lo) :
    (a ++ b).extractLsb' lo k = a.extractLsb' (lo - m) k := by
  apply BitVec.eq_of_getLsbD_eq
  intro j hj
  simp only [BitVec.getLsbD_extractLsb', BitVec.getLsbD_append, hj, decide_true, Bool.true_and]
  rw [if_neg (by omega), show lo + j - m = lo - m + j by omega]

/-- A slice inside the low part of a concatenation is a slice of that part. -/
theorem extract_append_low {n m : Nat} (a : BitVec n) (b : BitVec m) (lo k : Nat) (h : lo + k ≤ m) :
    (a ++ b).extractLsb' lo k = b.extractLsb' lo k := by
  apply BitVec.eq_of_getLsbD_eq
  intro j hj
  simp only [BitVec.getLsbD_extractLsb', BitVec.getLsbD_append, hj, decide_true, Bool.true_and]
  rw [if_pos (by omega)]

/-- The slice of all bits. -/
theorem extract_all {n : Nat} (a : BitVec n) : a.extractLsb' 0 n = a := by
  apply BitVec.eq_of_getLsbD_eq
  intro j hj
  simp [hj]

/-- The op field of an assembled word. -/
theorem opOf_mkWord (op : BitVec 5) (p : BitVec 64) : opOf (mkWord op p) = op :=
  (extract_append_high op p 64 5 (by omega)).trans (extract_all op)

/-- The payload of an assembled word. -/
theorem payloadOf_mkWord (op : BitVec 5) (p : BitVec 64) : payloadOf (mkWord op p) = p :=
  (extract_append_low op p 0 64 (by omega)).trans (extract_all p)

/-- Decoding an assembled word. -/
theorem decode_mkWord (op : BitVec 5) (p : BitVec 64) : decode (mkWord op p) = decodeFields op p := by
  rw [decode, opOf_mkWord, payloadOf_mkWord]

end Sys2Proof
end

