-- ==== Sys2Proof/Laws/Memory.lean ====
section
/-! SUPPORT. The laws of BUF: a read after a write, and every memory operation keeps the canonical form. -/

namespace Sys2Proof.Machine

set_option Elab.async false

/-- A byte below every listed address is unlisted. -/
theorem read_of_lt (m : Memory) (a : Nat) (h : ∀ c ∈ m, a < c.1) : m.read a = Memory.unlisted := by
  induction m with
  | nil => rfl
  | cons c rest ih =>
    have hc : c.1 ≠ a := fun e => absurd (h c (by simp)) (by omega)
    simp only [Memory.read, hc, if_false]
    exact ih fun d hd => h d (by simp [hd])

theorem read_write_same (m : Memory) (a : Nat) (b : Byte) (h : m.wf) : (m.write a b).read a = b := by
  induction m with
  | nil => by_cases hb : b = Memory.unlisted <;> simp [Memory.write, Memory.read, hb]
  | cons c rest ih =>
    obtain ⟨hp, hn⟩ := h
    obtain ⟨h1, h2⟩ := List.pairwise_cons.1 hp
    have hr : Memory.wf rest := ⟨h2, fun d hd => hn d (by simp [hd])⟩
    simp only [Memory.write]
    split
    · rename_i hlt
      split
      · rename_i hb
        rw [hb]
        apply read_of_lt
        intro d hd
        rcases List.mem_cons.1 hd with rfl | hd
        · exact hlt
        · exact lt_trans hlt (h1 d hd)
      · simp [Memory.read]
    · split
      · rename_i he
        split
        · rename_i hb
          rw [hb]
          exact read_of_lt rest a fun d hd => he ▸ h1 d hd
        · simp [Memory.read]
      · rename_i hne
        simp only [Memory.read, Ne.symm hne, if_false]
        exact ih hr

theorem read_write_other (m : Memory) (a a' : Nat) (b : Byte) (h : a' ≠ a) :
    (m.write a b).read a' = m.read a' := by
  induction m with
  | nil => by_cases hb : b = Memory.unlisted <;> simp [Memory.write, Memory.read, hb, Ne.symm h]
  | cons c rest ih =>
    simp only [Memory.write]
    split
    · split <;> simp [Memory.read, Ne.symm h]
    · split
      · rename_i he
        split <;> simp [Memory.read, ← he, Ne.symm h]
      · simp only [Memory.read, ih]

/-- Where the entries of a written memory come from. -/
theorem mem_write (m : Memory) (a : Nat) (b : Byte) (c : Host.Cell) (h : c ∈ m.write a b) :
    c ∈ m ∨ (c = (a, b) ∧ b ≠ Memory.unlisted) := by
  induction m with
  | nil =>
    by_cases hb : b = Memory.unlisted
    · simp [Memory.write, hb] at h
    · exact .inr ⟨by simpa [Memory.write, hb] using h, hb⟩
  | cons d rest ih =>
    simp only [Memory.write] at h
    split at h
    · split at h
      · exact .inl h
      · rename_i hb
        rcases List.mem_cons.1 h with rfl | h
        · exact .inr ⟨rfl, hb⟩
        · exact .inl h
    · split at h
      · split at h
        · exact .inl (List.mem_cons_of_mem _ h)
        · rename_i hb
          rcases List.mem_cons.1 h with rfl | h
          · exact .inr ⟨rfl, hb⟩
          · exact .inl (List.mem_cons_of_mem _ h)
      · rcases List.mem_cons.1 h with rfl | h
        · exact .inl (by simp)
        · exact (ih h).imp_left (List.mem_cons_of_mem _)

theorem write_wf (m : Memory) (a : Nat) (b : Byte) (h : m.wf) : (m.write a b).wf := by
  refine ⟨?_, fun c hc => ?_⟩
  · induction m with
    | nil => by_cases hb : b = Memory.unlisted <;> simp [Memory.write, hb]
    | cons d rest ih =>
      obtain ⟨hp, hn⟩ := h
      obtain ⟨h1, h2⟩ := List.pairwise_cons.1 hp
      simp only [Memory.write]
      split
      · rename_i hlt
        split
        · exact hp
        · refine List.pairwise_cons.2 ⟨fun c hc => ?_, hp⟩
          rcases List.mem_cons.1 hc with rfl | hc
          · exact hlt
          · exact lt_trans hlt (h1 c hc)
      · split
        · rename_i he
          split
          · exact h2
          · exact List.pairwise_cons.2 ⟨fun c hc => he ▸ h1 c hc, h2⟩
        · rename_i hlt hne
          refine List.pairwise_cons.2 ⟨fun c hc => ?_, ih ⟨h2, fun e he => hn e (by simp [he])⟩⟩
          rcases mem_write rest a b c hc with hm | ⟨rfl, -⟩
          · exact h1 c hm
          · show d.1 < a
            omega
  · rcases mem_write m a b c hc with hm | ⟨rfl, hb⟩
    · exact h.2 c hm
    · exact hb

theorem write_below (m : Memory) (a n : Nat) (b : Byte) (h : m.below n) (ha : a < n) :
    (m.write a b).below n := by
  intro c hc
  rcases mem_write m a b c hc with hm | ⟨rfl, -⟩
  · exact h c hm
  · exact ha

theorem writeElement_wf (m : Memory) (i : Nat) (v : Half) (h : m.wf) : (m.writeElement i v).wf :=
  write_wf _ _ _ (write_wf _ _ _ h)

theorem writeElement_below (m : Memory) (i n : Nat) (v : Half) (h : m.below (2 * n)) (hi : i < n) :
    (m.writeElement i v).below (2 * n) :=
  write_below _ _ _ _ (write_below _ _ _ _ h (by omega)) (by omega)

/-- A half-word is its high byte in front of its low byte. -/
theorem halves_append (v : Half) : v.extractLsb' 8 8 ++ v.extractLsb' 0 8 = v := by
  apply BitVec.eq_of_getLsbD_eq
  intro j hj
  rw [BitVec.getLsbD_append, BitVec.getLsbD_extractLsb', BitVec.getLsbD_extractLsb']
  by_cases h : j < 8
  · simp [h]
  · simp [h, show 8 + (j - 8) = j by omega, show j - 8 < 8 by omega]

theorem readElement_writeElement_same (m : Memory) (i : Nat) (v : Half) (h : m.wf) :
    (m.writeElement i v).readElement i = v := by
  unfold Memory.readElement Memory.writeElement
  rw [read_write_same _ _ _ (write_wf _ _ _ h), read_write_other _ _ _ _ (by omega), read_write_same _ _ _ h]
  exact halves_append v

theorem readElement_writeElement_other (m : Memory) (i j : Nat) (v : Half) (h : j ≠ i) :
    (m.writeElement i v).readElement j = m.readElement j := by
  unfold Memory.readElement Memory.writeElement
  rw [read_write_other _ _ _ _ (by omega), read_write_other _ _ _ _ (by omega),
    read_write_other _ _ _ _ (by omega), read_write_other _ _ _ _ (by omega)]

theorem writeSamples_wf (l : List Half) (m : Memory) (i : Nat) (h : m.wf) : (m.writeSamples i l).wf := by
  induction l generalizing m i with
  | nil => exact h
  | cons v rest ih => exact ih _ _ (writeElement_wf m i v h)

theorem writeSamples_below (l : List Half) (m : Memory) (i n : Nat) (h : m.below (2 * n))
    (hl : i + l.length ≤ n) : (m.writeSamples i l).below (2 * n) := by
  induction l generalizing m i with
  | nil => exact h
  | cons v rest ih =>
    simp only [List.length_cons] at hl
    exact ih _ _ (writeElement_below m i n v h (by omega)) (by omega)

/-- Storing samples leaves every element outside their range alone. -/
theorem readElement_writeSamples_other (l : List Half) (m : Memory) (i j : Nat) (h : j < i ∨ i + l.length ≤ j) :
    (m.writeSamples i l).readElement j = m.readElement j := by
  induction l generalizing m i with
  | nil => rfl
  | cons v rest ih =>
    simp only [List.length_cons] at h
    rw [Memory.writeSamples, ih _ _ (by omega), readElement_writeElement_other _ _ _ _ (by omega)]

/-- Storing samples from element `i` up puts sample `k` in element `i + k`. -/
theorem readElement_writeSamples_same (l : List Half) (m : Memory) (i k : Nat) (h : m.wf) (hk : k < l.length) :
    (m.writeSamples i l).readElement (i + k) = l[k] := by
  induction l generalizing m i k with
  | nil => exact absurd hk (Nat.not_lt_zero k)
  | cons v rest ih =>
    rw [Memory.writeSamples]
    cases k with
    | zero =>
      rw [readElement_writeSamples_other _ _ _ _ (by omega)]
      exact readElement_writeElement_same m i v h
    | succ k =>
      rw [show i + (k + 1) = i + 1 + k by omega,
        ih _ _ _ (writeElement_wf _ _ _ h) (by simpa using hk)]
      rfl

end Sys2Proof.Machine
end

