-- ==== Sys2Proof/Laws/Ops.lean ====
section
/-! SUPPORT. For each shared operation, one lemma that says once everything it can do; proofs cite it instead of
unfolding the operation. -/

namespace Sys2Proof.Machine

set_option Elab.async false

/-! ### Arithmetic -/

/-- `absdiff` is the absolute value of the exact difference (00_scope.md R12). -/
theorem absdiff_eq (a b : Nat) : absdiff a b = ((a : Int) - (b : Int)).natAbs := by
  unfold absdiff
  split <;> omega

/-- A difference of two values that fit 16 bits fits 16 bits. -/
theorem absdiff_le (a b : Nat) (ha : a ≤ 65535) (hb : b ≤ 65535) : absdiff a b ≤ 65535 := by
  unfold absdiff
  split <;> omega

/-- `elapsed` on naturals (60_exceptions.md R333). -/
theorem elapsed_eq (now t : Millis) : elapsed now t = (now.toNat + 2 ^ 32 - t.toNat) % 2 ^ 32 := by
  unfold elapsed
  rw [BitVec.toNat_sub]
  congr 1
  have := t.isLt
  omega

theorem deadlineMet_iff (now t : Millis) (d : Nat) : deadlineMet now t d = true ↔ d ≤ elapsed now t := by
  simp [deadlineMet]

/-- A sample never exceeds 16 bits (20_memory.md R61). -/
theorem bufRead_le (s : State) (i : Nat) : bufRead s i ≤ 65535 :=
  (Nat.mod_le _ _).trans (by have := (s.buf.readElement i).isLt; omega)

/-- The packed slot word as a number: `direction * 2^14 + address` (30_encoding.md R110). -/
theorem packSlot_toNat (sl : Slot) : (packSlot sl).toNat = sl.direction.toNat * 2 ^ 14 + sl.address.toNat := by
  show (sl.direction ++ sl.address).toNat = _
  rw [BitVec.toNat_append, ← Nat.shiftLeft_add_eq_or_of_lt sl.address.isLt, Nat.shiftLeft_eq]

/-- The assembled address as a number: the low six bits of the high part, then the low part (43_assembler.md R187). -/
theorem assembleAddress_toNat (h l : BitVec 8) : (assembleAddress h l).toNat = h.toNat % 64 * 256 + l.toNat := by
  have key : ∀ h : BitVec 8, ((h &&& addrHiMask).setWidth 14 <<< 8 : BitVec 14).toNat = (h.toNat % 64) <<< 8 := by
    decide
  have hl : (l.setWidth 14).toNat = l.toNat := by
    rw [BitVec.toNat_setWidth]
    exact Nat.mod_eq_of_lt (lt_trans l.isLt (by decide))
  unfold assembleAddress
  rw [BitVec.toNat_or, key, hl, ← Nat.shiftLeft_add_eq_or_of_lt l.isLt, Nat.shiftLeft_eq]

/-! ### The code tables -/

/-- What `DECROM` answers: a symbol with that codeword, or INVALID for a byte that is none (20_memory.md R62). -/
theorem decRom_cases (c : Config) (b : Byte) :
    (∃ k : Fin 19, c.code[k] = b ∧ decRom c b = BitVec.ofNat 5 k.val) ∨
    ((∀ k : Fin 19, c.code[k] ≠ b) ∧ decRom c b = symInvalid) := by
  unfold decRom
  cases h : c.code.toList.findIdx? (fun x => x == b) with
  | some k =>
    obtain ⟨hk, hb, -⟩ := List.findIdx?_eq_some_iff_getElem.1 h
    have hk' : k < 19 := by simpa using hk
    exact .inl ⟨⟨k, hk'⟩, by simpa using hb, rfl⟩
  | none =>
    refine .inr ⟨fun k hk => ?_, rfl⟩
    have := List.findIdx?_eq_none_iff.1 h (c.code[k]) (by simp)
    simp [hk] at this

/-- A decoded symbol is one of the 19, or INVALID (30_encoding.md R115). -/
theorem decRom_range (c : Config) (b : Byte) : (decRom c b).toNat ≤ 18 ∨ decRom c b = 31 := by
  rcases decRom_cases c b with ⟨k, -, h⟩ | ⟨-, h⟩
  · left
    rw [h, BitVec.toNat_ofNat]
    omega
  · exact .inr h

/-! ### The drawn network id -/

/-- A drawn network id lies in `ID_MIN .. ID_MAX` (46_responder.md R266), so it is no sentinel. -/
theorem drawNetworkId_range (c : Config) (rand : Half) (h : c.wf) :
    c.idMin.toNat ≤ (drawNetworkId c rand).toNat ∧ (drawNetworkId c rand).toNat ≤ c.idMax.toNat ∧
    drawNetworkId c rand ≠ 0x0000 ∧ drawNetworkId c rand ≠ 0xFFFF := by
  obtain ⟨-, -, -, -, -, -, -, -, -, -, h1, h2, h3, -, -⟩ := h
  have hm := Nat.mod_lt rand.toNat (show 0 < c.idMax.toNat - c.idMin.toNat + 1 by omega)
  have ht : (drawNetworkId c rand).toNat =
      c.idMin.toNat + rand.toNat % (c.idMax.toNat - c.idMin.toNat + 1) := by
    unfold drawNetworkId
    rw [BitVec.toNat_ofNat, Nat.mod_eq_of_lt (by omega)]
  refine ⟨by omega, by omega, fun h => ?_, fun h => ?_⟩ <;>
  · rw [h] at ht
    simp at ht
    omega

/-! ### The slots of one port -/

/-- The four slots. -/
theorem slotIdx_cases : ∀ k : SlotIdx, k = 0 ∨ k = 1 ∨ k = 2 ∨ k = 3 := by decide

/-- What `findSlot` answers: the lowest slot with that address, or none. -/
theorem findSlot_cases (sl : Vector Slot 4) (addr : BitVec 14) :
    (∃ k : SlotIdx, findSlot sl addr = some k ∧ sl[k].address = addr ∧
      ∀ j : SlotIdx, j < k → sl[j].address ≠ addr) ∨
    (findSlot sl addr = none ∧ ∀ k : SlotIdx, sl[k].address ≠ addr) := by
  by_cases h0 : sl[(0 : SlotIdx)].address = addr
  · exact .inl ⟨0, by simp_all [findSlot, slotList], h0, fun j hj => absurd hj (by revert j; decide)⟩
  by_cases h1 : sl[(1 : SlotIdx)].address = addr
  · refine .inl ⟨1, by simp_all [findSlot, slotList], h1, fun j hj => ?_⟩
    rcases slotIdx_cases j with rfl | rfl | rfl | rfl <;> first | assumption | exact absurd hj (by decide)
  by_cases h2 : sl[(2 : SlotIdx)].address = addr
  · refine .inl ⟨2, by simp_all [findSlot, slotList], h2, fun j hj => ?_⟩
    rcases slotIdx_cases j with rfl | rfl | rfl | rfl <;> first | assumption | exact absurd hj (by decide)
  by_cases h3 : sl[(3 : SlotIdx)].address = addr
  · refine .inl ⟨3, by simp_all [findSlot, slotList], h3, fun j hj => ?_⟩
    rcases slotIdx_cases j with rfl | rfl | rfl | rfl <;> first | assumption | exact absurd hj (by decide)
  refine .inr ⟨by simp_all [findSlot, slotList], fun k => ?_⟩
  rcases slotIdx_cases k with rfl | rfl | rfl | rfl <;> assumption

/-- What `SLOTUPD` does to the slots of its port: the first matching slot refreshed, else the first empty one claimed,
else nothing (43_assembler.md R190, R191). -/
theorem updateSlots_cases (sl : Vector Slot 4) (addr : BitVec 14) (dir : BitVec 2) (now : Millis) :
    (∃ k : SlotIdx, sl[k].address = addr ∧ (∀ j : SlotIdx, j < k → sl[j].address ≠ addr) ∧
      updateSlots sl addr dir now = sl.set k.val (refreshSlot dir now sl[k]) k.isLt) ∨
    ((∀ k : SlotIdx, sl[k].address ≠ addr) ∧
      ∃ k : SlotIdx, sl[k].address = 0 ∧ (∀ j : SlotIdx, j < k → sl[j].address ≠ 0) ∧
        updateSlots sl addr dir now = sl.set k.val (claimSlot addr dir now) k.isLt) ∨
    ((∀ k : SlotIdx, sl[k].address ≠ addr) ∧ (∀ k : SlotIdx, sl[k].address ≠ 0) ∧
      updateSlots sl addr dir now = sl) := by
  rcases findSlot_cases sl addr with ⟨k, hf, hk, hj⟩ | ⟨hf, hn⟩
  · exact .inl ⟨k, hk, hj, by simp [updateSlots, hf]⟩
  · rcases findSlot_cases sl 0 with ⟨k, hf0, hk, hj⟩ | ⟨hf0, hn0⟩
    · exact .inr (.inl ⟨hn, k, hk, hj, by rw [updateSlots, hf]; simp only [hf0]⟩)
    · exact .inr (.inr ⟨hn, hn0, by rw [updateSlots, hf]; simp only [hf0]⟩)

/-- What a refresh leaves and writes (43_assembler.md R190). -/
theorem refreshSlot_eq (dir : BitVec 2) (now : Millis) (sl : Slot) :
    refreshSlot dir now sl =
      { address := sl.address, direction := dir, lastSeenTimestamp := now,
        reported := if sl.direction = dir then sl.reported else false } := by
  unfold refreshSlot
  split
  · rename_i h
    simp [← h]
  · rfl

/-- Some slot is marked changed. -/
theorem slotsPending_iff (sl : Vector Slot 4) :
    slotsPending sl = true ↔ ∃ k : SlotIdx, sl[k].reported = false := by
  constructor
  · intro h
    simp only [slotsPending, Bool.or_eq_true, Bool.not_eq_true'] at h
    rcases h with ((h | h) | h) | h
    exacts [⟨0, h⟩, ⟨1, h⟩, ⟨2, h⟩, ⟨3, h⟩]
  · rintro ⟨k, hk⟩
    rcases slotIdx_cases k with rfl | rfl | rfl | rfl <;> simp_all [slotsPending]

/-- After a notification every slot is reported, whether or not one was pending (43_assembler.md R195). -/
theorem reportedSlots_eq (sl : Vector Slot 4) :
    reportedSlots sl = Vector.ofFn fun k => { sl[k] with reported := true } := by
  unfold reportedSlots
  split
  · rfl
  · rename_i h
    ext1 k hk
    have : ¬ ∃ k : SlotIdx, sl[k].reported = false := fun h' => h ((slotsPending_iff sl).2 h')
    push Not at this
    have hr := this ⟨k, hk⟩
    simp only [ne_eq, Bool.not_eq_false] at hr
    simp only [Vector.getElem_ofFn]
    have hr' : (sl[k]).reported = true := hr
    simp [← hr']

/-! ### The pairing of a window -/

/-- When a record has an accepted channel-1 pair (43_assembler.md R185, R186). -/
theorem acceptedPair_iff (r : FrameRecord) (f0 f1 : Frame) :
    acceptedPair r = some (f0, f1) ↔
      ∃ rest, r.frames = f0 :: f1 :: rest ∧ f0.sym.toNat ≤ 15 ∧ f1.sym.toNat ≤ 15 ∧ f1.start - f0.stop < 10 ∧
        ∀ f2, rest.head? = some f2 → f2.sym.toNat ≤ 18 → 10 ≤ f2.start - f1.stop := by
  obtain ⟨dc, frames⟩ := r
  rcases frames with _ | ⟨a, _ | ⟨b, rest⟩⟩
  · simp [acceptedPair]
  · simp [acceptedPair]
  · rcases rest with _ | ⟨c, rest⟩
    · simp only [acceptedPair, isData, Bool.and_true, Bool.and_eq_true, decide_eq_true_eq,
        Option.ite_none_right_eq_some, Option.some.injEq, Prod.mk.injEq, List.cons.injEq]
      constructor
      · rintro ⟨⟨⟨h1, h2⟩, h3⟩, rfl, rfl⟩
        exact ⟨[], ⟨rfl, rfl, rfl⟩, h1, h2, h3, by simp⟩
      · rintro ⟨rest, ⟨rfl, rfl, -⟩, h1, h2, h3, -⟩
        exact ⟨⟨⟨h1, h2⟩, h3⟩, rfl, rfl⟩
    · simp only [acceptedPair, isData, isValid, Bool.and_eq_true, decide_eq_true_eq, Bool.not_eq_true',
        Option.ite_none_right_eq_some, Option.some.injEq, Prod.mk.injEq, List.cons.injEq]
      constructor
      · rintro ⟨⟨⟨⟨h1, h2⟩, h3⟩, h4⟩, rfl, rfl⟩
        refine ⟨c :: rest, ⟨rfl, rfl, rfl⟩, h1, h2, h3, fun f2 hf2 hv => ?_⟩
        simp only [List.head?_cons, Option.some.injEq] at hf2
        subst hf2
        simp only [Bool.and_eq_false_iff, decide_eq_false_iff_not] at h4
        omega
      · rintro ⟨rest', ⟨rfl, rfl, rfl⟩, h1, h2, h3, h4⟩
        refine ⟨⟨⟨⟨h1, h2⟩, h3⟩, ?_⟩, rfl, rfl⟩
        have := h4 c rfl
        simp only [Bool.and_eq_false_iff, decide_eq_false_iff_not]
        omega

/-- When two successive pairs make an address, and which (43_assembler.md R187). -/
theorem pairedAddress_cases (prev cur : Chan) :
    (prev.lastSymbolId = 2 ∧ cur.lastSymbolId = 1 ∧
      pairedAddress prev cur = some (assembleAddress prev.lastSymbolValue cur.lastSymbolValue)) ∨
    (prev.lastSymbolId = 1 ∧ cur.lastSymbolId = 2 ∧
      pairedAddress prev cur = some (assembleAddress cur.lastSymbolValue prev.lastSymbolValue)) ∨
    (¬ (prev.lastSymbolId = 2 ∧ cur.lastSymbolId = 1) ∧ ¬ (prev.lastSymbolId = 1 ∧ cur.lastSymbolId = 2) ∧
      pairedAddress prev cur = none) := by
  unfold pairedAddress
  by_cases h1 : prev.lastSymbolId = 2 ∧ cur.lastSymbolId = 1
  · exact .inl ⟨h1.1, h1.2, if_pos h1⟩
  · by_cases h2 : prev.lastSymbolId = 1 ∧ cur.lastSymbolId = 2
    · exact .inr (.inl ⟨h2.1, h2.2, by rw [if_neg h1, if_pos h2]⟩)
    · exact .inr (.inr ⟨h1, h2, by rw [if_neg h1, if_neg h2]⟩)

/-- Everything `PAIR` can do: it writes the channel state of its port, and the slots of its port either stay or take
one `SLOTUPD` of an address other than 0 and 255 (43_assembler.md R184, R188). -/
theorem pair_cases (p : PortIdx) (r : FrameRecord) (s : State) :
    (∃ ch, pair p r s = s.setChan p ch) ∨
    (∃ ch addr, addr ≠ 0 ∧ addr ≠ 255 ∧
      pair p r s = slotupd p addr (directionOf r.directionCount) (s.setChan p ch)) := by
  unfold pair
  split
  · exact .inl ⟨_, rfl⟩
  · split
    · exact .inl ⟨_, rfl⟩
    · split
      · exact .inl ⟨_, rfl⟩
      · rename_i h
        push Not at h
        exact .inr ⟨_, _, h.1, h.2, rfl⟩

/-- A direction code is never 3 (43_assembler.md R189). -/
theorem directionOf_ne (dc : Int) : directionOf dc ≠ 3 := by
  unfold directionOf
  split
  · decide
  · split <;> decide

/-! ### The accumulator of one port -/

/-- Everything one sample can do to a port (44_occupancy.md R211, R212): it is accumulated, or it completes a
classification that agrees with the raw state, or one that flips it. -/
theorem accumulateSample_cases (c : Config) (trackSet : Nat) (now : Millis) (pr : PortRegs) (smp : Nat) :
    (pr.accCount + 1 ≠ c.occN ∧ accumulateSample c trackSet now pr smp =
      { pr with accSum := pr.accSum + absdiff smp pr.voltageOffset.toNat, accCount := pr.accCount + 1 }) ∨
    (pr.accCount + 1 = c.occN ∧
      occupied c trackSet (pr.accSum + absdiff smp pr.voltageOffset.toNat) = pr.state ∧
      accumulateSample c trackSet now pr smp = { pr with accSum := 0, accCount := 0 }) ∨
    (pr.accCount + 1 = c.occN ∧
      occupied c trackSet (pr.accSum + absdiff smp pr.voltageOffset.toNat) = !pr.state ∧
      accumulateSample c trackSet now pr smp =
        { pr with accSum := 0, accCount := 0, state := !pr.state, lastChangeTimestamp := now,
                  reported := !pr.reported }) := by
  unfold accumulateSample
  by_cases h : pr.accCount + 1 = c.occN
  · rw [if_pos h]
    by_cases h2 : occupied c trackSet (pr.accSum + absdiff smp pr.voltageOffset.toNat) = pr.state
    · exact .inr (.inl ⟨h, h2, by simp [classifyPort, h2]⟩)
    · have h3 := Bool.eq_not.2 h2
      exact .inr (.inr ⟨h, h3, by simp [classifyPort, flipPort, h3]⟩)
  · rw [if_neg h]
    exact .inl ⟨h, rfl⟩

/-- No sample changes the baseline, or the reported state (10_state.md R23, 44_occupancy.md R212). -/
theorem accumulateSample_keeps (c : Config) (trackSet : Nat) (now : Millis) (pr : PortRegs) (smp : Nat) :
    (accumulateSample c trackSet now pr smp).voltageOffset = pr.voltageOffset ∧
    reportedState (accumulateSample c trackSet now pr smp) = reportedState pr := by
  rcases accumulateSample_cases c trackSet now pr smp with ⟨-, h⟩ | ⟨-, -, h⟩ | ⟨-, -, h⟩ <;> rw [h]
  · exact ⟨rfl, rfl⟩
  · exact ⟨rfl, rfl⟩
  · refine ⟨rfl, ?_⟩
    cases hr : pr.reported <;> simp [reportedState, hr]

/-- A whole capture changes neither the baseline nor the reported state of the port. -/
theorem accumulate_keeps (c : Config) (trackSet : Nat) (now : Millis) (l : List Nat) (pr : PortRegs) :
    (l.foldl (accumulateSample c trackSet now) pr).voltageOffset = pr.voltageOffset ∧
    reportedState (l.foldl (accumulateSample c trackSet now) pr) = reportedState pr := by
  induction l generalizing pr with
  | nil => exact ⟨rfl, rfl⟩
  | cons smp rest ih =>
    have h := ih (accumulateSample c trackSet now pr smp)
    have h2 := accumulateSample_keeps c trackSet now pr smp
    exact ⟨h.1.trans h2.1, h.2.trans h2.2⟩

/-- What an announcement does to a port: only `reported` can change, from 0 to 1 (44_occupancy.md R214). -/
theorem announcePort_cases (cfg : ModuleConfig) (now : Millis) (pr : PortRegs) :
    (announceDue cfg now pr = true ∧ pr.reported = false ∧
      announcePort cfg now pr = { pr with reported := true }) ∨
    (announceDue cfg now pr = false ∧ announcePort cfg now pr = pr) := by
  unfold announcePort
  cases h : announceDue cfg now pr
  · exact .inr ⟨rfl, by simp⟩
  · refine .inl ⟨rfl, ?_, by simp⟩
    simp only [announceDue, Bool.and_eq_true, Bool.not_eq_true'] at h
    exact h.1

/-! ### The responder -/

/-- Everything the prologue can do (46_responder.md R261, R266). -/
theorem withPrologue_cases (srcNid : Half) (handler : State → State) (s : State) :
    (s.booted = false ∧ withPrologue srcNid handler s = s.finish .ignored .none) ∨
    (s.booted = true ∧ srcNid = s.cfg.networkId ∧
      withPrologue srcNid handler s = (collide s).finish .collision .none) ∨
    (s.booted = true ∧ srcNid ≠ s.cfg.networkId ∧ withPrologue srcNid handler s = handler s) := by
  unfold withPrologue
  cases hb : s.booted
  · exact .inl ⟨rfl, by simp⟩
  · by_cases h : srcNid = s.cfg.networkId
    · exact .inr (.inl ⟨rfl, h, by simp [h]⟩)
    · exact .inr (.inr ⟨rfl, h, by simp [h]⟩)

/-- Everything `PROGEXP` can do (46_responder.md R291). -/
theorem expireProg_cases (s : State) :
    (s.prog.active = true ∧ s.config.progWindowMs.toNat ≤ elapsed s.inp.now s.prog.openedAt ∧
      expireProg s = { s with prog := { s.prog with active := false } }) ∨
    ((s.prog.active = false ∨ elapsed s.inp.now s.prog.openedAt < s.config.progWindowMs.toNat) ∧
      expireProg s = s) := by
  unfold expireProg
  cases ha : s.prog.active
  · exact .inr ⟨.inl rfl, by simp⟩
  · by_cases hd : s.config.progWindowMs.toNat ≤ elapsed s.inp.now s.prog.openedAt
    · exact .inl ⟨rfl, hd, by simp [deadlineMet, hd]⟩
    · exact .inr ⟨.inr (by omega), by simp [deadlineMet, hd]⟩

/-- Everything `KEEPALIVE` can do (46_responder.md R296). -/
theorem keepAlive_cases (s : State) :
    (s.config.pingIntervalMs.toNat ≤ elapsed s.inp.now s.resp.lastPingTime ∧ keepAlive s = emitPing s) ∨
    (elapsed s.inp.now s.resp.lastPingTime < s.config.pingIntervalMs.toNat ∧ keepAlive s = s) := by
  unfold keepAlive
  by_cases hd : s.config.pingIntervalMs.toNat ≤ elapsed s.inp.now s.resp.lastPingTime
  · exact .inl ⟨hd, by simp [deadlineMet, hd]⟩
  · exact .inr ⟨by omega, by simp [deadlineMet, hd]⟩

/-- The field a tag selects, by the number in its upper half (20_memory.md R66). -/
theorem selectField_cases (tag : BitVec 32) :
    (tag.extractLsb' 16 16 = 0x0022 ∧ selectField tag = some .sendChannel2Data) ∨
    (tag.extractLsb' 16 16 = 0x0040 ∧ selectField tag = some .trackSetCurrentThreshold) ∨
    (tag.extractLsb' 16 16 = 0x0050 ∧ selectField tag = some .trackFreeToSetDelay) ∨
    (tag.extractLsb' 16 16 = 0x0051 ∧ selectField tag = some .trackSetToFreeDelay) ∨
    (tag.extractLsb' 16 16 ∉ ([0x0022, 0x0040, 0x0050, 0x0051] : List Half) ∧ selectField tag = none) := by
  unfold selectField
  generalize tag.extractLsb' 16 16 = u
  by_cases h1 : u = 0x0022
  · exact .inl ⟨h1, by subst h1; rfl⟩
  by_cases h2 : u = 0x0040
  · exact .inr (.inl ⟨h2, by subst h2; rfl⟩)
  by_cases h3 : u = 0x0050
  · exact .inr (.inr (.inl ⟨h3, by subst h3; rfl⟩))
  by_cases h4 : u = 0x0051
  · exact .inr (.inr (.inr (.inl ⟨h4, by subst h4; rfl⟩)))
  refine .inr (.inr (.inr (.inr ⟨by simp only [List.mem_cons, List.not_mem_nil, not_or]; exact ⟨h1, h2, h3, h4, id⟩, ?_⟩)))
  have toNat_ne : ∀ v : Half, u ≠ v → u.toNat ≠ v.toNat := fun v h h' => h (BitVec.eq_of_toNat_eq h')
  split
  · exact absurd ‹_› (toNat_ne _ h1)
  · exact absurd ‹_› (toNat_ne _ h2)
  · exact absurd ‹_› (toNat_ne _ h3)
  · exact absurd ‹_› (toNat_ne _ h4)
  · rfl

/-! ### The scheduler -/

/-- Everything `CAPDONE`, `TRIGGER` rely on: the two flags are both 0. -/
theorem captureIdle_iff (sc : Scheduler) :
    captureIdle sc = true ↔ sc.captureRunning = false ∧ sc.dataReady = false := by
  simp [captureIdle]

/-- Everything an accepted `TRIGGER` does to the scheduler (45_scheduler.md R231 to R233): the capture of the cursor's
port is latched and running, `dataReady` stays, and only the cursor of the kind moves. -/
theorem startCapture_cases (c : Config) (kind : Boundary) (sc : Scheduler) :
    (kind = .cutout ∧ sc.rcCount + 1 = c.maxConsec ∧ startCapture c kind sc =
      { sc with rcCount := 0, rcCursor := sc.rcCursor + 1, capPort := sc.rcCursor, capPurpose := .railcom,
                captureRunning := true }) ∨
    (kind = .cutout ∧ sc.rcCount + 1 ≠ c.maxConsec ∧ startCapture c kind sc =
      { sc with rcCount := sc.rcCount + 1, capPort := sc.rcCursor, capPurpose := .railcom, captureRunning := true }) ∨
    (kind = .idle ∧ startCapture c kind sc =
      { sc with csCursor := sc.csCursor + 1, capPort := sc.csCursor, capPurpose := .current,
                captureRunning := true }) := by
  cases kind
  · by_cases h : sc.rcCount + 1 = c.maxConsec
    · exact .inl ⟨rfl, h, by simp [startCapture, startRailcom, h]⟩
    · exact .inr (.inl ⟨rfl, h, by simp [startCapture, startRailcom, h]⟩)
  · exact .inr (.inr ⟨rfl, rfl⟩)

/-- Everything phase T1 of `TICK` can do (45_scheduler.md R238). -/
theorem consumeCapture_cases (s : State) :
    (s.sched.dataReady = false ∧ consumeCapture s = s) ∨
    (s.sched.dataReady = true ∧ s.sched.capPurpose = .railcom ∧
      consumeCapture s =
        { pair s.sched.capPort
            (extractBuffer s s.ports[s.sched.capPort].voltageOffset.toNat s.thr.thresholdVoltage.toNat) s with
          sched := { s.sched with dataReady := false } }) ∨
    (s.sched.dataReady = true ∧ s.sched.capPurpose = .current ∧
      consumeCapture s = { occacc s.sched.capPort s with sched := { s.sched with dataReady := false } }) := by
  unfold consumeCapture analyseCapture
  cases hd : s.sched.dataReady
  · exact .inl ⟨rfl, by simp⟩
  · cases hp : s.sched.capPurpose
    · exact .inr (.inl ⟨rfl, rfl, by simp⟩)
    · exact .inr (.inr ⟨rfl, rfl, by simp⟩)

/-! ### The host's interface -/

/-- What a fill stores: its samples, or as many values as BUF holds, of which nothing is known (20_memory.md R61, log 18). -/
theorem storedSamples_cases (c : Config) (m : Memory) (samples : List Half) :
    (samples.length ≤ bufLength c ∧ storedSamples c m samples = samples) ∨
    (bufLength c < samples.length ∧ (storedSamples c m samples).length = bufLength c) := by
  unfold storedSamples
  split
  · exact .inl ⟨‹_›, rfl⟩
  · exact .inr ⟨by omega, by simp⟩

/-- A fill never stores more than BUF holds. -/
theorem storedSamples_length_le (c : Config) (m : Memory) (samples : List Half) :
    (storedSamples c m samples).length ≤ bufLength c := by
  rcases storedSamples_cases c m samples with ⟨h, h'⟩ | ⟨-, h'⟩
  · rwa [h']
  · exact h'.le

end Sys2Proof.Machine
end

