-- ==== Sys2Proof/Laws/PerInstr.lean ====
section
/-! SUPPORT. Facts about every operation as syntax, one lemma per constructor. `OpField`: the op field of an operation's
command word is the op code its row of spec/opcode_table.json gives. -/

namespace Sys2Proof.Laws.OpField

set_option Elab.async false

/-- The op code of an operation's row in spec/opcode_table.json; none for a micro-operation. -/
def tableOp : Instr → Option (BitVec 5)
  | .demod _ _ => some 0x01
  | .enc48 _ => some 0x02
  | .dec84 _ => some 0x03
  | .extract _ _ => some 0x04
  | .trigger _ => some 0x08
  | .capdone => some 0x09
  | .tick => some 0x0A
  | .progopen => some 0x0B
  | .boot => some 0x0C
  | .rxPingreq _ => some 0x10
  | .rxPing _ _ _ _ => some 0x11
  | .rxInfoGet _ _ => some 0x12
  | .rxCfgGet _ _ => some 0x13
  | .rxCfgSet _ _ _ => some 0x14
  | .rxAccdataGet _ _ _ _ => some 0x15
  | .rxPort6Get _ _ _ _ => some 0x16
  | .rxSetaddr _ _ => some 0x17
  | .rxOther _ => some 0x18
  | .pair _ _ => none
  | .slotupd _ _ _ => none
  | .slotexp => none
  | .addrreport => none
  | .occacc _ => none
  | .occdeb => none
  | .progexp => none
  | .keepalive => none
  | .collision => none
  | .reserved00 _ => some 0x00
  | .reserved05 _ => some 0x05
  | .reserved06 _ => some 0x06
  | .reserved07 _ => some 0x07
  | .reserved0D _ => some 0x0D
  | .reserved0E _ => some 0x0E
  | .reserved0F _ => some 0x0F
  | .reserved19 _ => some 0x19
  | .reserved1A _ => some 0x1A
  | .reserved1B _ => some 0x1B
  | .reserved1C _ => some 0x1C
  | .reserved1D _ => some 0x1D
  | .reserved1E _ => some 0x1E
  | .reserved1F _ => some 0x1F

/-- The command word of the operation, if it has one, carries the op code of the operation's row. -/
def Statement (i : Instr) : Prop := (encode i).map opOf = tableOp i

theorem demod (a : _) (b : _) : Statement (.demod a b) := by
  simp [Statement, encode, encodeFields, tableOp, opOf_mkWord]

theorem enc48 (a : _) : Statement (.enc48 a) := by
  simp [Statement, encode, encodeFields, tableOp, opOf_mkWord]

theorem dec84 (a : _) : Statement (.dec84 a) := by
  simp [Statement, encode, encodeFields, tableOp, opOf_mkWord]

theorem extract (a : _) (b : _) : Statement (.extract a b) := by
  simp [Statement, encode, encodeFields, tableOp, opOf_mkWord]

theorem trigger (a : _) : Statement (.trigger a) := by
  simp [Statement, encode, encodeFields, tableOp, opOf_mkWord]

theorem capdone : Statement .capdone := by
  simp [Statement, encode, encodeFields, tableOp, opOf_mkWord]

theorem tick : Statement .tick := by
  simp [Statement, encode, encodeFields, tableOp, opOf_mkWord]

theorem progopen : Statement .progopen := by
  simp [Statement, encode, encodeFields, tableOp, opOf_mkWord]

theorem boot : Statement .boot := by
  simp [Statement, encode, encodeFields, tableOp, opOf_mkWord]

theorem rxPingreq (a : _) : Statement (.rxPingreq a) := by
  simp [Statement, encode, encodeFields, tableOp, opOf_mkWord]

theorem rxPing (a : _) (b : _) (c : _) (d : _) : Statement (.rxPing a b c d) := by
  simp [Statement, encode, encodeFields, tableOp, opOf_mkWord]

theorem rxInfoGet (a : _) (b : _) : Statement (.rxInfoGet a b) := by
  simp [Statement, encode, encodeFields, tableOp, opOf_mkWord]

theorem rxCfgGet (a : _) (b : _) : Statement (.rxCfgGet a b) := by
  simp [Statement, encode, encodeFields, tableOp, opOf_mkWord]

theorem rxCfgSet (a : _) (b : _) (c : _) : Statement (.rxCfgSet a b c) := by
  simp [Statement, encode, encodeFields, tableOp, opOf_mkWord]

theorem rxAccdataGet (a : _) (b : _) (c : _) (d : _) : Statement (.rxAccdataGet a b c d) := by
  simp [Statement, encode, encodeFields, tableOp, opOf_mkWord]

theorem rxPort6Get (a : _) (b : _) (c : _) (d : _) : Statement (.rxPort6Get a b c d) := by
  simp [Statement, encode, encodeFields, tableOp, opOf_mkWord]

theorem rxSetaddr (a : _) (b : _) : Statement (.rxSetaddr a b) := by
  simp [Statement, encode, encodeFields, tableOp, opOf_mkWord]

theorem rxOther (a : _) : Statement (.rxOther a) := by
  simp [Statement, encode, encodeFields, tableOp, opOf_mkWord]

theorem pair (a : _) (b : _) : Statement (.pair a b) := by
  simp [Statement, encode, encodeFields, tableOp]

theorem slotupd (a : _) (b : _) (c : _) : Statement (.slotupd a b c) := by
  simp [Statement, encode, encodeFields, tableOp]

theorem slotexp : Statement .slotexp := by
  simp [Statement, encode, encodeFields, tableOp]

theorem addrreport : Statement .addrreport := by
  simp [Statement, encode, encodeFields, tableOp]

theorem occacc (a : _) : Statement (.occacc a) := by
  simp [Statement, encode, encodeFields, tableOp]

theorem occdeb : Statement .occdeb := by
  simp [Statement, encode, encodeFields, tableOp]

theorem progexp : Statement .progexp := by
  simp [Statement, encode, encodeFields, tableOp]

theorem keepalive : Statement .keepalive := by
  simp [Statement, encode, encodeFields, tableOp]

theorem collision : Statement .collision := by
  simp [Statement, encode, encodeFields, tableOp]

theorem reserved00 (a : _) : Statement (.reserved00 a) := by
  simp [Statement, encode, encodeFields, tableOp, opOf_mkWord]

theorem reserved05 (a : _) : Statement (.reserved05 a) := by
  simp [Statement, encode, encodeFields, tableOp, opOf_mkWord]

theorem reserved06 (a : _) : Statement (.reserved06 a) := by
  simp [Statement, encode, encodeFields, tableOp, opOf_mkWord]

theorem reserved07 (a : _) : Statement (.reserved07 a) := by
  simp [Statement, encode, encodeFields, tableOp, opOf_mkWord]

theorem reserved0D (a : _) : Statement (.reserved0D a) := by
  simp [Statement, encode, encodeFields, tableOp, opOf_mkWord]

theorem reserved0E (a : _) : Statement (.reserved0E a) := by
  simp [Statement, encode, encodeFields, tableOp, opOf_mkWord]

theorem reserved0F (a : _) : Statement (.reserved0F a) := by
  simp [Statement, encode, encodeFields, tableOp, opOf_mkWord]

theorem reserved19 (a : _) : Statement (.reserved19 a) := by
  simp [Statement, encode, encodeFields, tableOp, opOf_mkWord]

theorem reserved1A (a : _) : Statement (.reserved1A a) := by
  simp [Statement, encode, encodeFields, tableOp, opOf_mkWord]

theorem reserved1B (a : _) : Statement (.reserved1B a) := by
  simp [Statement, encode, encodeFields, tableOp, opOf_mkWord]

theorem reserved1C (a : _) : Statement (.reserved1C a) := by
  simp [Statement, encode, encodeFields, tableOp, opOf_mkWord]

theorem reserved1D (a : _) : Statement (.reserved1D a) := by
  simp [Statement, encode, encodeFields, tableOp, opOf_mkWord]

theorem reserved1E (a : _) : Statement (.reserved1E a) := by
  simp [Statement, encode, encodeFields, tableOp, opOf_mkWord]

theorem reserved1F (a : _) : Statement (.reserved1F a) := by
  simp [Statement, encode, encodeFields, tableOp, opOf_mkWord]

end Sys2Proof.Laws.OpField
end

