-- ==== Sys2Proof/Laws/Scan.lean ====
section
/-! SUPPORT. The pieces of `EXTRACT` (42_extractor.md): the start search, the sampled codeword, the direction steps, one
turn of the scan. -/

namespace Sys2Proof.Machine

set_option Elab.async false

/-- A bit of a sequence, as an element of the list. -/
theorem bitAt_eq_true_iff (bits : List Bool) (i : Nat) : bitAt bits i = true ↔ bits[i]? = some true := by
  unfold bitAt
  rw [List.getD_eq_getElem?_getD]
  cases bits[i]? <;> simp

/-- A 0 bit inside the sequence. -/
theorem bitAt_eq_false_iff (bits : List Bool) (i : Nat) (h : i < bits.length) :
    bitAt bits i = false ↔ bits[i]? = some false := by
  unfold bitAt
  rw [List.getD_eq_getElem?_getD, List.getElem?_eq_getElem h]
  simp

/-- The test of the start search at one index (42_extractor.md R157). -/
theorem startTest_iff (bits : List Bool) (i : Nat) :
    (i < bits.length - 1 ∧ (bitAt bits i && !bitAt bits (i + 1)) = true) ↔
      bits[i]? = some true ∧ bits[i + 1]? = some false := by
  constructor
  · rintro ⟨hl, ht⟩
    simp only [Bool.and_eq_true, Bool.not_eq_true'] at ht
    exact ⟨(bitAt_eq_true_iff _ _).1 ht.1, (bitAt_eq_false_iff _ _ (by omega)).1 ht.2⟩
  · rintro ⟨h1, h2⟩
    obtain ⟨hl, -⟩ := List.getElem?_eq_some_iff.1 h2
    refine ⟨by omega, ?_⟩
    rw [(bitAt_eq_true_iff _ _).2 h1, (bitAt_eq_false_iff _ _ hl).2 h2]
    rfl

/-- What the start search answers (42_extractor.md R157, R158): the smallest start at or after `pos`. -/
theorem findStart_eq_some (bits : List Bool) (pos i : Nat) :
    findStart bits pos = some i ↔
      pos ≤ i ∧ (bits[i]? = some true ∧ bits[i + 1]? = some false) ∧
      ∀ j, pos ≤ j → j < i → ¬ (bits[j]? = some true ∧ bits[j + 1]? = some false) := by
  unfold findStart
  rw [List.find?_range_eq_some]
  simp only [Bool.and_assoc, Bool.and_eq_true (decide _), decide_eq_true_eq, List.mem_range]
  constructor
  · rintro ⟨⟨hp, ht⟩, hl, hj⟩
    refine ⟨hp, (startTest_iff bits i).1 ⟨hl, ht⟩, fun j hpj hji hs => ?_⟩
    have hb := hj j hji
    rw [((startTest_iff bits j).2 hs).2] at hb
    simp [hpj] at hb
  · rintro ⟨hp, hs, hj⟩
    obtain ⟨hl, ht⟩ := (startTest_iff bits i).2 hs
    refine ⟨⟨hp, ht⟩, hl, fun j hji => ?_⟩
    by_cases hpj : pos ≤ j
    · have hn := hj j hpj hji
      cases hb : (bitAt bits j && !bitAt bits (j + 1))
      · simp
      · exact absurd ((startTest_iff bits j).1 ⟨by omega, hb⟩) hn
    · simp [hpj]

/-- When the start search finds nothing (42_extractor.md R159). -/
theorem findStart_eq_none (bits : List Bool) (pos : Nat) :
    findStart bits pos = none ↔
      ∀ i, pos ≤ i → ¬ (bits[i]? = some true ∧ bits[i + 1]? = some false) := by
  unfold findStart
  rw [List.find?_eq_none]
  simp only [Bool.and_assoc, Bool.and_eq_true (decide _), decide_eq_true_eq, List.mem_range, not_and]
  constructor
  · intro h i hp h1 h2
    obtain ⟨hl, ht⟩ := (startTest_iff bits i).2 ⟨h1, h2⟩
    exact h i hl hp ht
  · intro h i hl hp ht
    obtain ⟨h1, h2⟩ := (startTest_iff bits i).1 ⟨hl, ht⟩
    exact h i hp h1 h2

/-- The bits sampled so far (42_extractor.md R163). -/
theorem frameCode_partial (bits : List Bool) (start n k : Nat) (hk : k < 8) :
    ((List.range n).foldl
      (fun code k => if bitAt bits (samplePoint start k) then code ||| (1#8 <<< k) else code) (0 : Byte)).getLsbD k =
      (decide (k < n) && bitAt bits (samplePoint start k)) := by
  induction n with
  | zero => simp
  | succ n ih =>
    rw [List.range_succ, List.foldl_append, List.foldl_cons, List.foldl_nil]
    by_cases hkn : k = n
    · subst hkn
      split
      · rename_i hb
        rw [BitVec.getLsbD_or, hb]
        simp [hk]
      · rename_i hb
        rw [ih]
        simp [hb]
    · have h1 : decide (k < n + 1) = decide (k < n) := by
        congr 1
        exact propext ⟨fun h => by omega, fun h => by omega⟩
      have h2 : ((1#8 <<< n : Byte)).getLsbD k = false := by
        simp only [BitVec.getLsbD_shiftLeft, BitVec.getLsbD_one]
        by_cases hlt : k < n
        · simp [hlt]
        · simp [show k - n ≠ 0 by omega]
      split
      · rw [BitVec.getLsbD_or, ih, h1, h2, Bool.or_false]
      · rw [ih, h1]

/-- Bit `k` of the codeword is the bit sampled at point `k` (42_extractor.md R163). -/
theorem frameCode_bit (bits : List Bool) (start k : Nat) (hk : k < 8) :
    (frameCode bits start).getLsbD k = bitAt bits (samplePoint start k) := by
  unfold frameCode
  rw [frameCode_partial bits start 8 k hk]
  simp [hk]

/-- One data bit moves `directionCount` by at most 1 (42_extractor.md R167). -/
theorem directionStep_range (bits : List Bool) (samples : List Nat) (off start k : Nat) :
    -1 ≤ directionStep bits samples off start k ∧ directionStep bits samples off start k ≤ 1 := by
  unfold directionStep
  split
  · omega
  · split
    · omega
    · split <;> omega

/-- One frame moves `directionCount` by at most 8 (42_extractor.md R167). -/
theorem frameDirection_range (bits : List Bool) (samples : List Nat) (off start : Nat) :
    -8 ≤ frameDirection bits samples off start ∧ frameDirection bits samples off start ≤ 8 := by
  have h8 : List.range 8 = [0, 1, 2, 3, 4, 5, 6, 7] := rfl
  unfold frameDirection
  rw [h8]
  simp only [List.foldl_cons, List.foldl_nil]
  have h := directionStep_range bits samples off start
  have h0 := h 0; have h1 := h 1; have h2 := h 2; have h3 := h 3
  have h4 := h 4; have h5 := h 5; have h6 := h 6; have h7 := h 7
  omega

/-- Everything one turn of the scan can do (42_extractor.md R157 to R162): stop because no frame is left to take, no
start is found or the frame does not fit, or take the frame and go on 39 ticks after its start. -/
theorem scanFrames_cases (c : Config) (bits : List Bool) (samples : List Nat) (off fuel pos : Nat) :
    (scanFrames c bits samples off fuel pos = { directionCount := 0, frames := [] } ∧
      (fuel = 0 ∨ findStart bits pos = none ∨ ∃ i, findStart bits pos = some i ∧ bits.length ≤ i + 1 + 34)) ∨
    (∃ fuel' i, fuel = fuel' + 1 ∧ findStart bits pos = some i ∧ i + 1 + 34 < bits.length ∧
      scanFrames c bits samples off fuel pos =
        prependFrame (frameDirection bits samples off (i + 1)) (frameAt c bits (i + 1))
          (scanFrames c bits samples off fuel' (i + 1 + 39))) := by
  cases fuel with
  | zero => exact .inl ⟨rfl, .inl rfl⟩
  | succ fuel =>
    cases h : findStart bits pos with
    | none => exact .inl ⟨by simp [scanFrames, h], .inr (.inl rfl)⟩
    | some i =>
      by_cases hl : i + 1 + 34 < bits.length
      · exact .inr ⟨fuel, i, rfl, rfl, hl, by simp [scanFrames, h, hl]⟩
      · exact .inl ⟨by simp [scanFrames, h, hl], .inr (.inr ⟨i, rfl, by omega⟩)⟩

/-- The scan takes at most as many frames as it may. -/
theorem scanFrames_length (c : Config) (bits : List Bool) (samples : List Nat) (off fuel pos : Nat) :
    (scanFrames c bits samples off fuel pos).frames.length ≤ fuel := by
  induction fuel generalizing pos with
  | zero => exact Nat.le_refl 0
  | succ fuel ih =>
    rcases scanFrames_cases c bits samples off (fuel + 1) pos with ⟨h, -⟩ | ⟨fuel', i, he, -, -, h⟩ <;> rw [h]
    · exact Nat.zero_le _
    · obtain rfl : fuel = fuel' := by omega
      exact Nat.succ_le_succ (ih _)

/-- The window of a capture has the length asked for. -/
theorem bufWindow_length (s : State) (len : Nat) : (bufWindow s len).length = len := by
  simp [bufWindow]

/-- The bits of a window are as many as its samples. -/
theorem demodWindow_length (off thr : Nat) (samples : List Nat) :
    (demodWindow off thr samples).length = samples.length := by
  simp [demodWindow]

/-- Sample `i` of a window is BUF element `i`. -/
theorem sampleAt_bufWindow (s : State) (len i : Nat) (h : i < len) : sampleAt (bufWindow s len) i = bufRead s i := by
  simp [sampleAt, bufWindow, List.getD_eq_getElem?_getD, h]

end Sys2Proof.Machine
end

