-- ==== Sys2Proof/Tests/Slice0.lean ====
section
/-! SUPPORT. Tests of the model on small states, their expected results taken from the spec's encodings, examples and
vectors (30_encoding.md, 95_test_vectors.md), and for every statement with hypotheses a state and operands that meet them
(`witness_…`), one for each clause at a boundary of its range. -/

open Sys2Proof Sys2Proof.Machine Sys2Proof.Claims

namespace Sys2Proof.Tests

set_option Elab.async false

/-! ### Helpers -/

/-- The next state of an operation. -/
def after (i : Instr) (s : State) : Option State :=
  match exec i s with
  | .next t => some t
  | _ => none

/-- The records an operation leaves. -/
def outOf (i : Instr) (s : State) : Option (List Output) := (after i s).map State.out

/-- The next state of a step. -/
def afterStep (s : State) : Option State :=
  match step s with
  | .next t => some t
  | _ => none

/-- The configuration of 95_test_vectors.md. -/
def cfg0 : ModuleConfig :=
  { networkId := 0xC321, moduleAddress := 0x0100, sendChannel2Data := false, trackSetCurrentThreshold := 1000,
    trackFreeToSetDelay := 100, trackSetToFreeDelay := 1000,
    voltageOffset := #v[2000, 2000, 2000, 2000, 2000, 2000, 2000, 2000] }

/-- The state after `rst` with the parameters of 00_scope.md R10. -/
def dead : State := State.resetWith testConfig

/-- The state after `BOOT` with `cfg0`. -/
def up : State :=
  { dead with booted := true, cfg := cfg0, thr := { thresholdVoltage := 100, trackSetVoltage := 50 },
              ports := Vector.ofFn fun _ => { PortRegs.reset with voltageOffset := 2000 } }

/-- The same at another time. -/
def atTime (s : State) (now : Millis) : State := { s with inp := { s.inp with now := now } }

/-- A capture in flight. -/
def capturing : State := { up with sched := { up.sched with captureRunning := true } }

/-- A capture waiting to be consumed. -/
def ready (u : Purpose) : State := { up with sched := { up.sched with dataReady := true, capPurpose := u } }

/-- One slot of port 3 filled. -/
def withSlot (s : State) (k : SlotIdx) (sl : Slot) : State := s.setSlots 3 (s.slots[(3 : PortIdx)].set k.val sl k.isLt)

/-- A slot seen at 1000 (the example of R193). -/
def slotA : Slot := { address := 0x0001, direction := 1, lastSeenTimestamp := 1000, reported := true }

/-- Port 3 with the slots `[0x0001/fwd, empty, 0x0203/unk, empty]` (the example of R190). -/
def port3 : State :=
  withSlot (withSlot up 0 slotA) 2 { address := 0x0203, direction := 0, lastSeenTimestamp := 0, reported := true }

/-- Port 3 with four addresses. -/
def full3 : State := withSlot (withSlot port3 1 { slotA with address := 0x0104 }) 3 { slotA with address := 0x0105 }

/-- Port 2 occupied with the report pending since 200. -/
def pending2 : State :=
  up.setPort 2 { PortRegs.reset with state := true, reported := false, lastChangeTimestamp := 200, voltageOffset := 2000 }

/-- Samples of one frame with a start tick and a codeword (95_test_vectors.md, FRAMES): 0 bits 300 above 2000. -/
def lowAt (start : Nat) (code : Byte) (t : Nat) : Bool :=
  decide (start ≤ t ∧ t < start + 4) ||
  (decide (start + 4 ≤ t ∧ t < start + 36) && !code.getLsbD ((t - start - 4) / 4))

/-- A window of two frames. -/
def window (len : Nat) (a : Byte) (sa : Nat) (b : Byte) (sb : Nat) : List Half :=
  (List.range len).map fun t => if lowAt sa a t || lowAt sb b t then 2300 else 2000

/-- `up` with a window of 90 samples: symbols 1 and 0 at ticks 10 and 50. -/
def windowed (s : State) : State :=
  { s with config := { testConfig with winLen := 90 }, buf := Memory.writeSamples [] 0 (window 90 0xAA 10 0xAC 50) }

/-- A frame record of two data symbols `a`, `b` with a gap, and a third frame if asked for. -/
def record (a b : Symbol) (gap : Nat) (third : List Frame) : FrameRecord :=
  { directionCount := 8
    frames := { start := 10, stop := 50, code := 0xAC, sym := a } ::
      { start := 50 + gap, stop := 90 + gap, code := 0xAA, sym := b } :: third }

/-- A third frame of a symbol, `gap` ticks after the second frame of `record a b 0`. -/
def thirdFrame (s : Symbol) (gap : Nat) : Frame := { start := 90 + gap, stop := 130 + gap, code := 0x0F, sym := s }

/-- Port 0 with a stored pair of id 2 and value 1. -/
def haveHi : State := up.setChan 0 { lastSymbolId := 2, lastSymbolValue := 1 }

/-! ### Well-formedness: each check refuses an ill-formed term -/

theorem test_wf_frame_start : (Frame.mk 0 40 0xAC 0).wf = false := by decide
theorem test_wf_frame_stop : (Frame.mk 10 51 0xAC 0).wf = false := by decide
theorem test_wf_frame_symbol : (Frame.mk 10 50 0xAC 19).wf = false ∧ (Frame.mk 10 50 0xAC 30).wf = false := by decide
theorem test_wf_frames_overlap :
    (Instr.pair 0 { directionCount := 0, frames := [⟨10, 50, 0xAC, 0⟩, ⟨49, 89, 0xAA, 1⟩] }).wf = false := by decide
theorem test_wf_nine_frames :
    (Instr.pair 0 ⟨0, (List.range 9).map fun j => ⟨1 + 40 * j, 41 + 40 * j, 0xAC, 0⟩⟩).wf = false := by decide
theorem test_wf_direction_count : (Instr.pair 0 { directionCount := 65, frames := [] }).wf = false ∧
    (Instr.pair 0 { directionCount := -65, frames := [] }).wf = false := by decide
theorem test_wf_address_zero : (Instr.slotupd 0 0 1).wf = false := by decide
theorem test_wf_address_255 : (Instr.slotupd 0 255 1).wf = false := by decide
theorem test_wf_direction : (Instr.slotupd 0 1 3).wf = false := by decide
theorem test_wf_accepts : (Instr.pair 0 (record 0 1 9 [])).wf = true ∧ (Instr.slotupd 7 0x3FFF 2).wf = true := by decide

/-! ### Decoding: words written out from R90 and R99 -/

theorem test_decode_function :
    decode 0x0100000001FFFFFFFF = .demod 0xFFFF 0x1FFFF ∧ decode 0x020000000000000012 = .enc48 18 ∧
    decode 0x0300000000000000AA = .dec84 0xAA ∧ decode 0x04000000000FA00064 = .extract 2000 100 := by decide

theorem test_decode_event :
    decode 0x080000000000000000 = .trigger .cutout ∧ decode 0x080000000000000001 = .trigger .idle ∧
    decode 0x090000000000000000 = .capdone ∧ decode 0x0A0000000000000000 = .tick ∧
    decode 0x0B0000000000000000 = .progopen ∧ decode 0x0C0000000000000000 = .boot := by decide

theorem test_decode_message :
    decode 0x101234000000000000 = .rxPingreq 0x1234 ∧
    decode 0x111234567820010007 = .rxPing 0x1234 0x5678 0x2001 7 ∧
    decode 0x121234000200000000 = .rxInfoGet 0x1234 2 ∧
    decode 0x1312340050BEEF0000 = .rxCfgGet 0x1234 0x0050BEEF ∧
    decode 0x14123400400000FFFF = .rxCfgSet 0x1234 0x00400000 0xFFFF ∧
    decode 0x151234010003110000 = .rxAccdataGet 0x1234 0x0100 3 0x11 ∧
    decode 0x161234010002010000 = .rxPort6Get 0x1234 0x0100 2 0x01 ∧
    decode 0x171234020500000000 = .rxSetaddr 0x1234 0x0205 ∧
    decode 0x184444000000000000 = .rxOther 0x4444 := by decide

theorem test_decode_reserved :
    decode 0x000000000000000000 = .reserved00 0 ∧ decode 0x050000000000000001 = .reserved05 1 ∧
    decode 0x060000000000000000 = .reserved06 0 ∧ decode 0x070000000000000000 = .reserved07 0 ∧
    decode 0x0D0000000000000000 = .reserved0D 0 ∧ decode 0x0E0000000000000000 = .reserved0E 0 ∧
    decode 0x0F0000000000000000 = .reserved0F 0 ∧ decode 0x190000000000000000 = .reserved19 0 ∧
    decode 0x1A0000000000000000 = .reserved1A 0 ∧ decode 0x1B0000000000000000 = .reserved1B 0 ∧
    decode 0x1C0000000000000000 = .reserved1C 0 ∧ decode 0x1D0000000000000000 = .reserved1D 0 ∧
    decode 0x1E0000000000000000 = .reserved1E 0 ∧ decode 0x1FFFFFFFFFFFFFFFFF = .reserved1F 0xFFFFFFFFFFFFFFFF := by
  decide

/-- A micro-operation has no word (R90). -/
theorem test_encode_micro : encode .slotexp = none ∧ encode .collision = none := by decide

/-- The host's two entry points agree on a word. -/
theorem test_table_word : decodeTableWord 69 0x0A0000000000000000 = some .tick := by decide

/-- A presented word is what the next step runs, after reset (log 1). -/
theorem test_fetch_runs (n w : Nat) :
    step (State.reset.withFetchWord n w) = exec (decode (wordOfNat w)) State.reset := rfl

/-! ### Function commands -/

/-- B1: samples 2000, 2099, 2100, 1901, 1900, 2300 with `off = 2000`, `thr = 100`. -/
theorem test_demod : outOf (.demod 2000 100)
    { dead with config := { testConfig with winLen := 6 },
                buf := Memory.writeSamples [] 0 [2000, 2099, 2100, 1901, 1900, 2300] } =
    some [result .done (.bits [true, true, false, true, false, false])] := by decide +kernel

/-- B1: `thr = 0` gives only 0 bits (R133). -/
theorem test_demod_zero_threshold : outOf (.demod 2000 0)
    { dead with config := { testConfig with winLen := 2 }, buf := Memory.writeSamples [] 0 [2000, 4095] } =
    some [result .done (.bits [false, false])] := by decide +kernel

theorem test_enc48 : outOf (.enc48 16) dead = some [result .done (.codeword 0x0F)] := by decide +kernel
theorem test_enc48_invalid : outOf (.enc48 31) dead = some [result .ignored (.codeword 0x00)] := by decide +kernel
theorem test_dec84 : outOf (.dec84 0x3C) dead = some [result .done (.sym 17)] := by decide +kernel
theorem test_dec84_balanced_unused : outOf (.dec84 0x33) dead = some [result .done (.sym 31)] := by decide +kernel

/-- Two frames back to back at ticks 10 and 50, 0 bits above the baseline (B3). -/
theorem test_extract : outOf (.extract 2000 100) (windowed dead) = some [result .done (.frames
    { directionCount := 8, frames := [⟨10, 50, 0xAA, 1⟩, ⟨50, 90, 0xAC, 0⟩] })] := by decide +kernel

theorem test_extract_ignored : outOf (.extract 2000 100) capturing = some [result .ignored .none] := by decide +kernel

/-! ### Reserved op codes -/

theorem test_reserved : after (.reserved1F 5) up = some { up with out := [result .reserved .none] } ∧
    after (.reserved00 5) up = some { up with out := [result .reserved .none] } := by decide +kernel

/-! ### The scheduler -/

/-- The example of R231. -/
theorem test_trigger_cutout : outOf (.trigger .cutout) up = some [.arm 0 .railcom, result .done .none] ∧
    (after (.trigger .cutout) up).map (fun t => (t.sched.rcCount, t.sched.rcCursor, t.sched.captureRunning)) =
      some (1, 0, true) := by decide +kernel

/-- The cursor wraps from 7 to 0 (R242(e)). -/
theorem test_trigger_idle_wraps :
    (after (.trigger .idle) { up with sched := { up.sched with csCursor := 7 } }).map
      (fun t => (t.sched.csCursor, t.sched.capPort, t.sched.capPurpose)) = some (0, 7, .current) := by decide +kernel

theorem test_capdone : (after .capdone capturing).map flags = some (false, true) := by decide +kernel
theorem test_capdone_ignored : outOf .capdone up = some [result .ignored .none] := by decide +kernel

/-- A current-sense capture of four samples 100 above the baseline flips the port (PRG2, step at 200). -/
theorem test_tick_current :
    (after .tick (atTime { ready .current with buf := Memory.writeSamples [] 0 [2100, 2100, 2100, 2100] } 200)).map
      (fun t => (t.ports[(0 : PortIdx)], t.sched.dataReady, t.out)) =
    some ({ PortRegs.reset with state := true, reported := false, lastChangeTimestamp := 200, voltageOffset := 2000 },
      false, [result .done .none]) := by decide +kernel

/-- A decode window of symbols 1 and 0 pairs with a stored id 2: address 0x0100 forward is claimed and announced. -/
theorem test_tick_railcom :
    outOf .tick (windowed { haveHi with sched := (ready .railcom).sched }) =
    some [.tx (.accData 0xC321 0x0100 0 0x11 0x4100 0), .tx (.accData 0xC321 0x0100 0 0x12 0 0),
      result .done .none] := by decide +kernel

/-! ### The address assembler -/

/-- Ids 2 then 1 with values 1 and 1: address 0x0101, forward (PRG4). -/
theorem test_pair : (after (.pair 0 (record 1 1 9 [])) haveHi).map
    (fun t => (t.slots[(0 : PortIdx)][(0 : SlotIdx)].address, t.slots[(0 : PortIdx)][(0 : SlotIdx)].direction,
      t.chans[(0 : PortIdx)])) = some (0x0101, 1, { lastSymbolId := 1, lastSymbolValue := 1 }) := by decide +kernel

/-- A gap of 10 ticks is too long (R186). -/
theorem test_pair_gap : (after (.pair 0 (record 1 1 10 [])) haveHi).map (fun t => (t.chans[(0 : PortIdx)], t.slots)) =
    some ({ lastSymbolId := 0, lastSymbolValue := 0 }, up.slots) := by decide +kernel

/-- The two examples of R190. -/
theorem test_slotupd_claims : (after (.slotupd 3 0x0104 2) (atTime port3 900)).map
    (fun t => t.slots[(3 : PortIdx)][(1 : SlotIdx)]) =
    some { address := 0x0104, direction := 2, lastSeenTimestamp := 900, reported := false } := by decide +kernel

theorem test_slotupd_refreshes : (after (.slotupd 3 0x0203 1) (atTime port3 900)).map
    (fun t => t.slots[(3 : PortIdx)][(2 : SlotIdx)]) =
    some { address := 0x0203, direction := 1, lastSeenTimestamp := 900, reported := false } := by decide +kernel

/-- The example of R193: kept at 1499, cleared at 1500. -/
theorem test_slotexp_clears : (after .slotexp (atTime port3 1500)).map (fun t => t.slots[(3 : PortIdx)][(0 : SlotIdx)]) =
    some { address := 0, direction := 0, lastSeenTimestamp := 1000, reported := false } := by decide +kernel

theorem test_slotexp_keeps : (after .slotexp (atTime port3 1499)).map (fun t => t.slots[(3 : PortIdx)][(0 : SlotIdx)]) =
    some slotA := by decide +kernel

/-- The example of R195, on port 3. -/
theorem test_addrreport : outOf .addrreport (withSlot up 0 { slotA with direction := 0, reported := false }) =
    some [.tx (.accData 0xC321 0x0100 3 0x11 0x0001 0), .tx (.accData 0xC321 0x0100 3 0x12 0 0)] := by decide +kernel

/-! ### The occupancy detector -/

/-- An average equal to the threshold is Free (R213). -/
theorem test_occacc_strict :
    (after (.occacc 0) { up with buf := Memory.writeSamples [] 0 [2050, 1950, 2050, 1950] }).map
      (fun t => t.ports[(0 : PortIdx)]) = some up.ports[(0 : PortIdx)] := by decide +kernel

/-- A flip back before the announcement cancels the pending report (R212). -/
theorem test_occacc_flip_back :
    (after (.occacc 2) (atTime { pending2 with buf := Memory.writeSamples [] 0 [2000, 2000, 2000, 2000] } 250)).map
      (fun t => t.ports[(2 : PortIdx)]) =
    some { PortRegs.reset with lastChangeTimestamp := 250, voltageOffset := 2000 } := by decide +kernel

/-- Announced at 300, not at 299 (the delay is 100). -/
theorem test_occdeb : outOf .occdeb (atTime pending2 300) = some [.tx (.port6 0xC321 0x0100 2 0x01 1)] ∧
    outOf .occdeb (atTime pending2 299) = some [] := by decide +kernel

/-! ### The responder -/

/-- The example of R266. -/
theorem test_collision :
    (after .collision { up with inp := { up.inp with rand := 0x1234 } }).map (fun t => t.cfg.networkId) = some 0xC234 := by
  decide +kernel

theorem test_rxPingreq : outOf (.rxPingreq 0x1234) up = some
    [.tx (.ping 0xC321 0 0x9201 0), result .handled .none] := by decide +kernel

theorem test_rxPing : outOf (.rxPing 0x1234 0x1234 0x2001 7) up = some
    [.tx (.ping 0xC321 0x1234 0x9201 0), result .handled .none] := by decide +kernel

/-- Bit 13 of 0x9201 is 0 (R271(a)). -/
theorem test_rxPing_unqualified : outOf (.rxPing 0x1234 0x1234 0x9201 7) up = some [result .unhandled .none] := by
  decide +kernel

theorem test_rxInfoGet : outOf (.rxInfoGet 1 2) up = some
    [.tx (.infoAck 0xC321 2 0x00010007), result .handled .none] := by decide +kernel
theorem test_rxInfoGet_unknown : outOf (.rxInfoGet 1 9) up = some [result .unhandled .none] := by decide +kernel

theorem test_rxCfgGet : outOf (.rxCfgGet 1 0x0050BEEF) up = some
    [.tx (.cfgAck 0xC321 0x0050BEEF 100), result .handled .none] := by decide +kernel

/-- The example of R280. -/
theorem test_rxCfgSet : (after (.rxCfgSet 1 0x00400000 2000) up).map
    (fun t => (t.cfg.trackSetCurrentThreshold, t.thr)) =
    some (2000, { thresholdVoltage := 200, trackSetVoltage := 100 }) := by decide +kernel

/-- 65535 mA gives 6553 and 3276 (B8). -/
theorem test_rxCfgSet_large : (after (.rxCfgSet 1 0x00400000 0xFFFF) up).map State.thr =
    some { thresholdVoltage := 6553, trackSetVoltage := 3276 } := by decide +kernel

theorem test_rxAccdataGet : outOf (.rxAccdataGet 1 0x0100 3 0x11)
    (withSlot port3 1 { slotA with address := 0x0104, direction := 2 }) =
    some [.tx (.accData 0xC321 0x0100 3 0x11 0x4001 0x8104), result .handled .none] := by decide +kernel

/-- During a pending report the answer is the old state (R285). -/
theorem test_rxPort6Get : outOf (.rxPort6Get 1 0x0100 2 0x01) pending2 = some
    [.tx (.port6 0xC321 0x0100 2 0x01 0), result .handled .none] := by decide +kernel

theorem test_rxSetaddr : (after (.rxSetaddr 1 0x0205) { up with prog := { active := true, openedAt := 2000 } }).map
    (fun t => (t.cfg.moduleAddress, t.prog)) = some (0x0205, { active := false, openedAt := 2000 }) := by decide +kernel

theorem test_rxOther : outOf (.rxOther 0x4444) up = some [result .unhandled .none] := by decide +kernel
theorem test_progopen : (after .progopen (atTime up 2000)).map State.prog =
    some { active := true, openedAt := 2000 } := by decide +kernel

/-- The example of R291: kept at 11999, closed at 12000. -/
theorem test_progexp :
    (after .progexp (atTime { up with prog := { active := true, openedAt := 2000 } } 12000)).map (fun t => t.prog.active) =
      some false ∧
    (after .progexp (atTime { up with prog := { active := true, openedAt := 2000 } } 11999)).map (fun t => t.prog.active) =
      some true := by decide +kernel

/-- The example of R296. -/
theorem test_keepalive : outOf .keepalive (atTime up 1000) = some [.tx (.ping 0xC321 0 0x9201 0)] ∧
    outOf .keepalive (atTime up 999) = some [] := by decide +kernel

/-- The modular clock: 10 ms after `2^32 - 5` it is 5 (R333). -/
theorem test_elapsed_wraps : elapsed 5 0xFFFFFFFB = 10 := by decide

/-! ### Boot -/

/-- The bytes of a record, lowest first. -/
def bytesOf (r : RecordBits) (n : Nat) : List Byte := (List.range n).map (recordByte r)

/-- The first boot of R358(a). -/
theorem test_boot_first : (after .boot { dead with inp := { dead.inp with rand := 0x1234 } }).map
    (fun t => (t.cfg.networkId, t.thr, bytesOf (encodeRecord t.cfg) 13, t.booted)) =
    some (0xC234, { thresholdVoltage := 100, trackSetVoltage := 50 },
      [0x34, 0xC2, 0x00, 0x01, 0x00, 0xE8, 0x03, 0x64, 0x00, 0xE8, 0x03, 0xD0, 0x07], true) := by decide +kernel

/-- A stored record is loaded without output (R358(c)); the record's low bytes `21 C3 05 02 01 D0 07 32 00 F4 01`. -/
theorem test_boot_stored :
    (after .boot { dead with inp := { now := 7, rand := 0, storePresent := true, storeRec := 0x01F4003207D0010205C321 } }).map
      (fun t => (t.cfg.networkId, t.cfg.moduleAddress, t.cfg.sendChannel2Data, t.thr, t.out)) =
    some (0xC321, 0x0205, true, { thresholdVoltage := 200, trackSetVoltage := 100 }, [result .done .none]) := by
  decide +kernel

/-! ### Witnesses: states and operands that meet the hypotheses of the statements -/

/-- A host that presents a word. -/
def presenting (s : State) (w : CmdWord) : State := { s with host := [.command w Inputs.reset, .rst] }

theorem witness_DecodeOfEncodeIsIdentity : encode (.trigger .idle) = some 0x080000000000000001 ∧
    encode (.demod 0xFFFF 0x1FFFF) = some 0x0100000001FFFFFFFF := by decide

theorem witness_RecordLayout : (decodeRecord (0xFF <<< 32)).sendChannel2Data = true ∧
    (decodeRecord 0).sendChannel2Data = false := by decide +kernel

theorem witness_StepRunsTheDecodedCommand :
    (presenting up 0x0A0000000000000000).host = .command 0x0A0000000000000000 Inputs.reset :: [.rst] ∧
    (presenting up 0x0A0000000000000000).out = [] ∧ decode 0x0A0000000000000000 = .tick ∧ Instr.tick.wf = true := by
  decide +kernel

theorem witness_StepWaits :
    (presenting { up with out := [result .done .none] } 0x0A0000000000000000).host =
      .command 0x0A0000000000000000 Inputs.reset :: [.rst] ∧
    (presenting { up with out := [result .done .none] } 0x0A0000000000000000).out ≠ [] ∧ up.host = [] := by
  decide +kernel

/-- Three records waiting. -/
def waiting (ch : Channel) : State :=
  { up with host := [.take ch], out := [.persist 0, .tx (.cfgAck 1 2 3), result .handled .none] }

theorem witness_TakeRemovesFirstOfChannel :
    (waiting .arm).host = .take .arm :: [] ∧ (∀ o ∈ (waiting .arm).out, channelOf o ≠ .arm) ∧
    (waiting .tx).host = .take .tx :: [] ∧
    (waiting .tx).out = [.persist 0] ++ .tx (.cfgAck 1 2 3) :: [result .handled .none] ∧
    channelOf (.tx (.cfgAck 1 2 3)) = .tx ∧ (∀ x ∈ [Output.persist 0], channelOf x ≠ .tx) := by decide +kernel

/-- A sampler with a given number of samples for a buffer of four. -/
def filling (n : Nat) : State :=
  { up with config := { testConfig with winLen := 3 }, host := [.fill (List.replicate n 2000)], buf := [(6, 1)] }

theorem witness_FillStoresTheSamples :
    (filling 4).host = .fill [2000, 2000, 2000, 2000] :: [] ∧ (filling 4).buf.wf ∧
    4 ≤ max (filling 4).config.winLen (filling 4).config.csLen ∧
    (filling 5).host = .fill [2000, 2000, 2000, 2000, 2000] :: [] ∧
    max (filling 5).config.winLen (filling 5).config.csLen < 5 := by decide +kernel

theorem witness_RstIsTheOnlyWayBack : { up with host := [.rst] }.host = .rst :: [] ∧
    { up with host := [.rst] }.booted = true ∧
    (afterStep { up with host := [.rst] }).map State.booted = some false := by decide +kernel

theorem witness_StepKeepsInvariant : (presenting up 0x080000000000000001).Inv ∧
    (afterStep (presenting up 0x080000000000000001)).map flags = some (true, false) := by
  refine ⟨⟨testConfig_wf, ?_, ?_, ?_, ?_, ?_, ?_, ?_, ?_⟩, ?_⟩ <;> decide +kernel

theorem witness_ResetMeetsInvariant : testConfig.wf := testConfig_wf

theorem witness_OperationsLeaveBufferAndInputs :
    (after (.occacc 0) { up with buf := Memory.writeSamples [] 0 [2100, 2100, 2100, 2100] }).map State.buf =
      some (Memory.writeSamples [] 0 [2100, 2100, 2100, 2100]) := by decide +kernel

theorem witness_BufferUnreadWhileCapturing : isPortCommand (.extract 2000 100) = true ∧ isPortCommand .tick = true ∧
    capturing.sched.captureRunning = true ∧ capturing.sched.dataReady = false ∧
    (after .tick capturing).isSome = true := by decide +kernel

theorem witness_OneResultPerCommand : isPortCommand .tick = true ∧ isPortCommand .slotexp = false := by decide

theorem witness_RefusedCommandsChangeNothing :
    outOf (.enc48 19) up = some (up.out ++ [] ++ [.res { status := .ignored, value := .codeword 0 }]) ∧
    outOf (.reserved05 0) up = some (up.out ++ [] ++ [.res { status := .reserved, value := .none }]) ∧
    outOf (.rxOther 1) up = some (up.out ++ [] ++ [.res { status := .unhandled, value := .none }]) := by decide +kernel

/-- The programming window open. -/
def windowOpen : State := { up with prog := { active := true, openedAt := 0 } }

theorem witness_WhoWritesTheConfiguration : windowOpen.booted = true ∧
    (after (.rxOther 0xC321) windowOpen).map (fun t => t.cfg.networkId) = some 0xC000 ∧ windowOpen.cfg.networkId = 0xC321 ∧
    (after (.rxSetaddr 1 0x0205) windowOpen).map (fun t => t.cfg.moduleAddress) = some 0x0205 ∧
    windowOpen.cfg.moduleAddress = 0x0100 ∧
    (after (.rxCfgSet 1 0x00510000 7) windowOpen).map (fun t => t.cfg.trackSetToFreeDelay) = some 7 ∧
    windowOpen.cfg.trackSetToFreeDelay = 1000 := by decide +kernel

theorem witness_SessionChangesOnlyByAdoption :
    (after (.rxPing 1 0x1234 0x2000 9) up).map State.sess =
      some { hasMaster := true, masterNetworkId := 0x1234, sessionId := 0 } ∧
    up.sess = { hasMaster := false, masterNetworkId := 0, sessionId := 0 } := by decide +kernel

theorem witness_DemodComparesEverySample :
    up.sched.captureRunning = false ∧ up.sched.dataReady = false ∧
    capturing.sched.captureRunning = true ∧ (ready .railcom).sched.dataReady = true := by decide +kernel

theorem witness_EncodeSymbol : (18 : Sys2Proof.Symbol).toNat < 19 ∧ 19 ≤ (19 : Sys2Proof.Symbol).toNat := by decide

theorem witness_DecodeByte : dead.config.wf ∧ dead.config.code[(18 : Fin 19)] = 0xE1 ∧
    ∀ k : Fin 19, dead.config.code[k] ≠ 0xF0 := by decide +kernel

theorem witness_CodecLaws : testConfig.wf ∧ (18 : Sys2Proof.Symbol).toNat ≤ 18 ∧
    (∀ s, encRom testConfig s ≠ some 0xF0) ∧ decRom testConfig 0xE1 ≠ 31 ∧ popcount 0xE0 ≠ 4 := by decide +kernel

theorem witness_ExtractFollowsTheScan :
    (windowed dead).sched.captureRunning = false ∧ (windowed dead).sched.dataReady = false ∧
    capturing.sched.captureRunning = true ∧ (ready .railcom).sched.dataReady = true := by decide +kernel

/-- A frame that fits to the last sample point (`start + 34 = L - 1`), and one that misses it by one tick (R162). -/
theorem witness_ExtractedFramesFitTheWindow :
    (extractWindow testConfig (true :: List.replicate 35 false) (List.replicate 36 2300) 2000).n = 1 ∧
    (extractWindow testConfig (true :: List.replicate 34 false) (List.replicate 35 2300) 2000).n = 0 := by
  decide +kernel

theorem witness_ReservedOpsOnlyReport : (0x00 : BitVec 5) ∈ reservedOps ∧ (0x1F : BitVec 5) ∈ reservedOps ∧
    reservedOps.length = 14 := by decide

theorem witness_TriggerArmsTheNextCapture :
    up.booted = true ∧ up.sched.captureRunning = false ∧ up.sched.dataReady = false ∧
    { up.sched with rcCount := 1 }.rcCount + 1 = up.config.maxConsec ∧ up.sched.rcCount + 1 ≠ up.config.maxConsec ∧
    dead.booted = false ∧ capturing.sched.captureRunning = true ∧ (ready .current).sched.dataReady = true := by
  decide +kernel

theorem witness_CapdoneHandsOverTheBuffer : capturing.booted = true ∧ capturing.sched.captureRunning = true ∧
    dead.booted = false ∧ up.sched.captureRunning = false := by decide +kernel

theorem witness_TickRunsThePhasesInOrder : dead.booted = false ∧ up.booted = true ∧ up.sched.dataReady = false ∧
    (ready .railcom).booted = true ∧ (ready .railcom).sched.dataReady = true ∧
    (ready .railcom).sched.capPurpose = .railcom ∧ (ready .current).sched.dataReady = true ∧
    (ready .current).sched.capPurpose = .current := by decide +kernel

/-- The greatest number of records (R239): every port has a pending report and a changed slot, and a ping is due. -/
def busy : State :=
  { atTime up 5000 with
    ports := Vector.ofFn fun _ => { PortRegs.reset with state := true, reported := false }
    slots := Vector.ofFn fun _ => Vector.ofFn fun _ => { Slot.reset with reported := false } }

theorem witness_TickOutputOrder : busy.booted = true ∧ (outOf .tick busy).map List.length = some 26 := by
  decide +kernel

theorem witness_CaptureHandshake : (after (.trigger .cutout) up).map flags = some (true, false) ∧
    (after .capdone capturing).map flags = some (false, true) ∧
    (after .tick (ready .current)).map flags = some (false, false) ∧
    (after .tick capturing).map flags = some (true, false) := by decide +kernel

/-- The state at the `k`-th accepted `IDLE` trigger. -/
def turn (k : Nat) : State := { up with sched := { up.sched with csCursor := Fin.ofNat 8 k } }

theorem witness_CurrentCursorVisitsEveryPort : ∀ k, (turn k).booted = true ∧ flags (turn k) = (false, false) ∧
    ∃ t, exec (.trigger .idle) (turn k) = .next t ∧ (turn (k + 1)).sched.csCursor = t.sched.csCursor := by
  refine fun k => ⟨rfl, rfl, _, rfl, ?_⟩
  apply Fin.ext
  show (k + 1) % 8 = (k % 8 + 1) % 8
  omega

/-- The state at the `k`-th accepted `CUTOUT` trigger, with `MAX_CONSEC = 2`. -/
def dwell (k : Nat) : State :=
  { up with sched := { up.sched with rcCursor := Fin.ofNat 8 (k / 2), rcCount := k % 2 } }

theorem witness_RailcomCursorDwellsThenAdvances :
    1 ≤ testConfig.maxConsec ∧ (dwell 0).sched.rcCount = 0 ∧ 1 < testConfig.maxConsec ∧ 2 = testConfig.maxConsec ∧
    (∀ k, (dwell k).config = testConfig ∧ (dwell k).booted = true ∧ flags (dwell k) = (false, false) ∧
      ∃ t, exec (.trigger .cutout) (dwell k) = .next t ∧
        (dwell (k + 1)).sched.rcCursor = t.sched.rcCursor ∧ (dwell (k + 1)).sched.rcCount = t.sched.rcCount) ∧
    flags capturing ≠ (false, false) := by
  refine ⟨by decide, rfl, by decide, rfl, fun k => ⟨rfl, rfl, rfl, _, rfl, ?_⟩, by decide⟩
  show Fin.ofNat 8 ((k + 1) / 2) = (startRailcom testConfig (dwell k).sched).rcCursor ∧
    (k + 1) % 2 = (startRailcom testConfig (dwell k).sched).rcCount
  rcases Nat.mod_two_eq_zero_or_one k with h | h
  · have hc : (dwell k).sched.rcCount + 1 ≠ testConfig.maxConsec := by
      show k % 2 + 1 ≠ 2
      omega
    rw [startRailcom, if_neg hc]
    refine ⟨?_, ?_⟩
    · show Fin.ofNat 8 ((k + 1) / 2) = Fin.ofNat 8 (k / 2)
      rw [show (k + 1) / 2 = k / 2 by omega]
    · show (k + 1) % 2 = k % 2 + 1
      omega
  · have hc : (dwell k).sched.rcCount + 1 = testConfig.maxConsec := by
      show k % 2 + 1 = 2
      omega
    rw [startRailcom, if_pos hc]
    refine ⟨?_, ?_⟩
    · apply Fin.ext
      show (k + 1) / 2 % 8 = (k / 2 % 8 + 1) % 8
      omega
    · show (k + 1) % 2 = 0
      omega

theorem witness_PairRule_accepted :
    PairAccepted (record 2 15 9 [thirdFrame 31 0]) ⟨10, 50, 0xAC, 2⟩ ⟨59, 99, 0xAA, 15⟩ ∧
    PairAccepted (record 15 1 0 [thirdFrame 18 10]) ⟨10, 50, 0xAC, 15⟩ ⟨50, 90, 0xAA, 1⟩ ∧
    testConfig.pairFields.toList[16 * 1 + 15]? = some (1, 15) := by
  refine ⟨⟨[thirdFrame 31 0], rfl, by decide, by decide, by decide, ?_⟩,
    ⟨[thirdFrame 18 10], rfl, by decide, by decide, by decide, ?_⟩, by decide +kernel⟩
  · rintro f2 h hv
    obtain rfl : thirdFrame 31 0 = f2 := by simpa using h
    exact absurd hv (by decide)
  · rintro f2 h -
    obtain rfl : thirdFrame 18 10 = f2 := by simpa using h
    decide

theorem witness_PairRule_rejected : (¬ ∃ f0 f1, PairAccepted (record 2 1 10 []) f0 f1) ∧
    (¬ ∃ f0 f1, PairAccepted (record 16 1 0 []) f0 f1) ∧
    (¬ ∃ f0 f1, PairAccepted (record 2 1 0 [thirdFrame 18 9]) f0 f1) ∧
    ¬ ∃ f0 f1, PairAccepted { directionCount := 0, frames := [] } f0 f1 := by
  refine ⟨?_, ?_, ?_, ?_⟩ <;> rintro ⟨f0, f1, rest, h, h0, h1, hg, h2⟩ <;> cases h
  · exact absurd hg (by decide)
  · exact absurd h0 (by decide)
  · exact absurd (h2 _ rfl (by decide)) (by decide)

theorem witness_PairRule_addresses :
    MakesAddress haveHi.chans[(0 : PortIdx)] { lastSymbolId := 1, lastSymbolValue := 0 } 0x0100 ∧
    MakesAddress { lastSymbolId := 1, lastSymbolValue := 0xFF } { lastSymbolId := 2, lastSymbolValue := 0xFF } 0x3FFF ∧
    MakesAddress { lastSymbolId := 2, lastSymbolValue := 0x40 } { lastSymbolId := 1, lastSymbolValue := 0xFF } 255 ∧
    MakesAddress { lastSymbolId := 1, lastSymbolValue := 0 } { lastSymbolId := 2, lastSymbolValue := 0 } 0 ∧
    ∀ addr, ¬ MakesAddress { lastSymbolId := 2, lastSymbolValue := 1 } { lastSymbolId := 2, lastSymbolValue := 1 } addr := by
  refine ⟨.inl (by decide), .inr (by decide), .inl (by decide), .inr (by decide), fun addr h => ?_⟩
  rcases h with ⟨-, h, -⟩ | ⟨h, -⟩
  · exact absurd h (by decide)
  · exact absurd h (by decide)

theorem witness_SlotupdRule :
    full3.slots[(3 : PortIdx)][(3 : SlotIdx)].address = 0x0105 ∧
    (∀ j : SlotIdx, j < 3 → full3.slots[(3 : PortIdx)][j].address ≠ 0x0105) ∧
    (∀ k : SlotIdx, port3.slots[(3 : PortIdx)][k].address ≠ 0x0104) ∧
    port3.slots[(3 : PortIdx)][(1 : SlotIdx)].address = 0 ∧
    (∀ j : SlotIdx, j < 1 → port3.slots[(3 : PortIdx)][j].address ≠ 0) ∧
    (∀ k : SlotIdx, full3.slots[(3 : PortIdx)][k].address ≠ 0x3FFF) ∧
    ∀ k : SlotIdx, full3.slots[(3 : PortIdx)][k].address ≠ 0 := by decide +kernel

theorem witness_FifthAddressIsDropped :
    (∀ k : SlotIdx, full3.slots[(3 : PortIdx)][k].address ≠ 0 ∧ full3.slots[(3 : PortIdx)][k].address ≠ 0x3FFF) ∧
    (∀ k : SlotIdx, up.slots[(7 : PortIdx)][k].address = 0) ∧
    (∀ j : Fin 5, BitVec.ofNat 14 (j.val + 1) ≠ 0) ∧
    ∀ j k : Fin 5, j ≠ k → BitVec.ofNat 14 (j.val + 1) ≠ BitVec.ofNat 14 (k.val + 1) := by decide +kernel

theorem witness_SlotexpRule :
    port3.slots[(3 : PortIdx)][(0 : SlotIdx)].address ≠ 0 ∧
    port3.config.railcomTimeoutMs.toNat = since 1500 port3.slots[(3 : PortIdx)][(0 : SlotIdx)].lastSeenTimestamp ∧
    since 1499 port3.slots[(3 : PortIdx)][(0 : SlotIdx)].lastSeenTimestamp < port3.config.railcomTimeoutMs.toNat ∧
    port3.slots[(3 : PortIdx)][(1 : SlotIdx)].address = 0 := by decide +kernel

theorem witness_OccaccRule : up.ports[(0 : PortIdx)].accCount + 1 ≠ up.config.occN ∧
    { PortRegs.reset with accCount := 3 }.accCount + 1 = up.config.occN ∧
    (200 + deviation 2003 2000) / up.config.occN = up.thr.trackSetVoltage.toNat ∧
    (200 + deviation 1996 2000) / up.config.occN > up.thr.trackSetVoltage.toNat := by decide +kernel

theorem witness_OccdebRule : AnnounceDue pending2.cfg 300 pending2.ports[(2 : PortIdx)] ∧
    ¬ AnnounceDue pending2.cfg 299 pending2.ports[(2 : PortIdx)] ∧
    ¬ AnnounceDue up.cfg 300 up.ports[(2 : PortIdx)] := by
  refine ⟨⟨rfl, by decide +kernel⟩, fun h => absurd h.2 (by decide +kernel), fun h => absurd h.1 (by decide +kernel)⟩

theorem witness_ReportedStateChangesOnlyWithAnnouncement :
    (after .occdeb (atTime pending2 300)).map (fun t => reportedState t.ports[(2 : PortIdx)]) = some true ∧
    reportedState pending2.ports[(2 : PortIdx)] = false := by decide +kernel

theorem witness_MessagePrologue : senderOf (.rxOther 0xC321) = some 0xC321 ∧ dead.booted = false ∧ up.booted = true ∧
    (0xC321 : Half) = up.cfg.networkId := by decide +kernel

theorem witness_CollisionRule : up.config.wf := testConfig_wf

/-- The sender 0x1234 is another node. -/
theorem witness_Foreign : Foreign up 0x1234 ∧ Foreign windowOpen 0x1234 ∧ Foreign port3 0x1234 ∧ Foreign pending2 0x1234 := by
  refine ⟨⟨rfl, by decide⟩, ⟨rfl, by decide⟩, ⟨rfl, by decide⟩, ⟨rfl, by decide⟩⟩

/-- `up` with the master 0x1234. -/
def mastered : State := adoptMaster up 0x1234

theorem witness_PingAdoptsNewMaster : Foreign mastered 1 ∧ (0x2000 : Half) &&& 0x2000 = 0x2000 ∧
    (up.sess.hasMaster = false) ∧ (0x1235 : Half) ≠ mastered.sess.masterNetworkId ∧
    ¬ ((0xDFFF : Half) &&& 0x2000 = 0x2000) ∧
    ¬ (mastered.sess.hasMaster = false ∨ (0x1234 : Half) ≠ mastered.sess.masterNetworkId) := by
  refine ⟨⟨rfl, by decide⟩, by decide, rfl, by decide, by decide, by decide⟩

theorem witness_InfoQueryAnswers : Foreign up 1 ∧ up.config.wf ∧ (1 : Half) = up.config.infoTagHw ∧
    (2 : Half) = up.config.infoTagFw ∧ (3 : Half) = up.config.infoTagDate ∧ (4 : Half) = up.config.infoTagId ∧
    (5 : Half) = up.config.infoTagType ∧ (6 : Half) ∉ up.config.infoTags ∧ (0 : Half) ∉ up.config.infoTags :=
  ⟨⟨rfl, by decide⟩, testConfig_wf, by decide, by decide, by decide, by decide, by decide, by decide, by decide⟩

theorem witness_ConfigTags : Foreign up 1 ∧ (0x0022FFFF : BitVec 32).extractLsb' 16 16 = 0x0022 ∧
    (0x00400000 : BitVec 32).extractLsb' 16 16 = 0x0040 ∧ (0x0050BEEF : BitVec 32).extractLsb' 16 16 = 0x0050 ∧
    (0x00510000 : BitVec 32).extractLsb' 16 16 = 0x0051 ∧
    (0x00520000 : BitVec 32).extractLsb' 16 16 ∉ ([0x0022, 0x0040, 0x0050, 0x0051] : List Half) ∧
    (0x00410000 : BitVec 32).extractLsb' 16 16 ∉ ([0x0022, 0x0040, 0x0050, 0x0051] : List Half) :=
  ⟨⟨rfl, by decide⟩, by decide, by decide, by decide, by decide, by decide, by decide⟩

theorem witness_AccessoryDataQuery : Foreign port3 1 ∧ IdMatches port3 0x0100 ∧ IdMatches port3 0xC321 ∧
    (7 : Byte).toNat = (7 : PortIdx).val ∧ ¬ IdMatches port3 0x0101 ∧ 8 ≤ (8 : Byte).toNat ∧
    ((0x13 : Byte) ≠ 0x11 ∧ (0x13 : Byte) ≠ 0x12) :=
  ⟨⟨rfl, by decide⟩, .inl rfl, .inr (by decide), by decide,
    fun h => h.elim (fun e => absurd e (by decide)) (fun e => absurd e (by decide)), by decide, by decide⟩

theorem witness_OccupancyQuery : Foreign pending2 1 ∧ IdMatches pending2 0x0100 ∧
    (2 : Byte).toNat = (2 : PortIdx).val ∧ pending2.ports[(2 : PortIdx)].state ≠ pending2.ports[(2 : PortIdx)].reported ∧
    ¬ IdMatches pending2 0x0101 ∧ 8 ≤ (8 : Byte).toNat ∧ (0x02 : Byte) ≠ 0x01 :=
  ⟨⟨rfl, by decide⟩, .inl rfl, by decide, by decide,
    fun h => h.elim (fun e => absurd e (by decide)) (fun e => absurd e (by decide)), by decide, by decide⟩

theorem witness_SetAddressNeedsTheWindow : Foreign windowOpen 1 ∧ windowOpen.prog.active = true ∧ Foreign up 1 ∧
    up.prog.active = false := ⟨⟨rfl, by decide⟩, rfl, ⟨rfl, by decide⟩, rfl⟩

theorem witness_ProgopenOpensTheWindow : up.booted = true ∧ dead.booted = false := ⟨rfl, rfl⟩

theorem witness_ProgexpClosesTheWindow : windowOpen.prog.active = true ∧
    windowOpen.config.progWindowMs.toNat = since 10000 windowOpen.prog.openedAt ∧
    since 9999 windowOpen.prog.openedAt < windowOpen.config.progWindowMs.toNat ∧ up.prog.active = false := by decide +kernel

theorem witness_KeepaliveSendsWhenDue : up.config.pingIntervalMs.toNat = since 1000 up.resp.lastPingTime ∧
    since 999 up.resp.lastPingTime < up.config.pingIntervalMs.toNat := by decide +kernel

theorem witness_BootLoadsOrInitialises : dead.booted = false ∧ dead.inp.storePresent = false ∧ up.booted = true ∧
    (0x0001 : RecordBits).extractLsb' 0 16 ≠ 0x0000 ∧ (0xFFFE : RecordBits).extractLsb' 0 16 ≠ 0xFFFF ∧
    (0x10000 : RecordBits).extractLsb' 0 16 = 0x0000 ∧ (0xFFFF : RecordBits).extractLsb' 0 16 = 0xFFFF := by
  decide +kernel

theorem witness_HostCannotStopTheCore : (∀ w inp rest, (filling 5).host ≠ .command w inp :: rest) ∧
    (∀ rest, (filling 5).host ≠ .rst :: rest) ∧ (afterStep (filling 5)).isSome = true :=
  ⟨fun _ _ _ h => (by cases h), fun _ h => (by cases h), rfl⟩

end Sys2Proof.Tests
end

section
/-! PROOF. The persisted record (30_encoding.md R112). The two bytes of a field are the halves of `recordHalf` at the
field's offset, so the layout of the bytes and the round trip both follow from the fields of an encoded record, read back
at their offsets. -/

namespace Sys2Proof.Machine

/-- A byte of a 16-bit field is the byte of the record that many bits further on. -/
theorem extract_recordHalf (r : RecordBits) (off lo : Nat) (h : lo + 8 ≤ 16) :
    (recordHalf r off).extractLsb' lo 8 = r.extractLsb' (8 * off + lo) 8 := by
  apply BitVec.eq_of_getLsbD_eq
  intro j hj
  simp [recordHalf, hj, show lo + j < 16 by omega, Nat.add_assoc]

/-- Little-endian: a field's low byte stands at the field's offset, its high byte next to it. -/
theorem recordBytes_of_recordHalf {r : RecordBits} {off : Nat} {x : Half} (h : recordHalf r off = x) :
    recordByte r off = x.extractLsb' 0 8 ∧ recordByte r (off + 1) = x.extractLsb' 8 8 := by
  subst h
  exact ⟨(extract_recordHalf r off 0 (by decide)).symm, (extract_recordHalf r off 8 (by decide)).symm⟩

/-- The fields in front of the voltage offsets, read back from an encoded record: what stands below a field's offset is
peeled off, then what stands above the field. -/
theorem encodeRecord_fields (cfg : ModuleConfig) :
    recordHalf (encodeRecord cfg) 0 = cfg.networkId ∧
    recordHalf (encodeRecord cfg) 2 = cfg.moduleAddress ∧
    recordByte (encodeRecord cfg) 4 = (if cfg.sendChannel2Data then 0x01 else 0x00) ∧
    recordHalf (encodeRecord cfg) 5 = cfg.trackSetCurrentThreshold ∧
    recordHalf (encodeRecord cfg) 7 = cfg.trackFreeToSetDelay ∧
    recordHalf (encodeRecord cfg) 9 = cfg.trackSetToFreeDelay := by
  unfold recordHalf recordByte encodeRecord
  refine ⟨?_, ?_, ?_, ?_, ?_, ?_⟩
  all_goals
    repeat rw [extract_append_high (h := by decide)]
    rw [extract_append_low (h := by decide)]
    exact extract_all _

/-- The voltage offset of each port, read back from an encoded record; nothing stands above that of port 7. -/
theorem encodeRecord_voltageOffset (cfg : ModuleConfig) (p : PortIdx) :
    recordHalf (encodeRecord cfg) (11 + 2 * p.val) = cfg.voltageOffset[p] := by
  unfold recordHalf encodeRecord
  fin_cases p
  all_goals repeat rw [extract_append_high (h := by decide)]
  on_goal 8 => exact extract_all _
  all_goals
    rw [extract_append_low (h := by decide)]
    exact extract_all _

/-- On load the flag is set iff byte 4 is not 0. -/
theorem decodeRecord_sendChannel2Data (r : RecordBits) :
    (decodeRecord r).sendChannel2Data = true ↔ recordByte r 4 ≠ 0 :=
  bne_iff_ne

/-- Loading inverts the layout, field by field. -/
theorem decodeRecord_encodeRecord (cfg : ModuleConfig) : decodeRecord (encodeRecord cfg) = cfg := by
  obtain ⟨hnid, haddr, hflag, hcur, hset, hfree⟩ := encodeRecord_fields cfg
  have hload : (recordByte (encodeRecord cfg) 4 != 0) = cfg.sendChannel2Data := by
    rw [hflag]
    cases cfg.sendChannel2Data <;> rfl
  have hoff : (Vector.ofFn fun p : PortIdx => cfg.voltageOffset[p]) = cfg.voltageOffset := by
    ext i hi
    simp
  simp only [decodeRecord, hnid, haddr, hload, hcur, hset, hfree, encodeRecord_voltageOffset, hoff]

/-- Settles O5: each field read back gives its two bytes, the flag is a byte of its own, and loading inverts the layout. -/
theorem recordLayout : Obligations.RecordLayout := by
  refine ⟨fun cfg => ?_, decodeRecord_sendChannel2Data⟩
  obtain ⟨hnid, haddr, hflag, hcur, hset, hfree⟩ := encodeRecord_fields cfg
  obtain ⟨nidLo, nidHi⟩ := recordBytes_of_recordHalf hnid
  obtain ⟨addrLo, addrHi⟩ := recordBytes_of_recordHalf haddr
  obtain ⟨curLo, curHi⟩ := recordBytes_of_recordHalf hcur
  obtain ⟨setLo, setHi⟩ := recordBytes_of_recordHalf hset
  obtain ⟨freeLo, freeHi⟩ := recordBytes_of_recordHalf hfree
  have offsets (p : PortIdx) :
      recordByte (encodeRecord cfg) (11 + 2 * p.val) = (cfg.voltageOffset[p]).extractLsb' 0 8 ∧
      recordByte (encodeRecord cfg) (12 + 2 * p.val) = (cfg.voltageOffset[p]).extractLsb' 8 8 := by
    rw [show 12 + 2 * p.val = 11 + 2 * p.val + 1 by omega]
    exact recordBytes_of_recordHalf (encodeRecord_voltageOffset cfg p)
  exact ⟨nidLo, nidHi, addrLo, addrHi, hflag, curLo, curHi, setLo, setHi, freeLo, freeHi, offsets,
    decodeRecord_encodeRecord cfg⟩

end Sys2Proof.Machine
end

section
/-! PROOF. The sample demodulator (40_demod.md R131): the model's window of bits is what the rule asks of BUF, and `DEMOD`
ends with it exactly when no capture is in flight or unconsumed. -/

namespace Sys2Proof.Machine
open Sys2Proof.Claims

/-- The model's difference is the one the statements speak of (00_scope.md R12). -/
theorem absdiff_eq_deviation (a b : Nat) : absdiff a b = deviation a b := absdiff_eq a b

/-- Bit `i` of a demodulated window compares BUF element `i` (40_demod.md R131, R132). -/
theorem demodWindow_bufWindow_getElem (s : State) (off thr len i : Nat)
    (h : i < (demodWindow off thr (bufWindow s len)).length) :
    (demodWindow off thr (bufWindow s len))[i] = decide (deviation (bufRead s i) off < thr) := by
  simp [demodWindow, bufWindow, demodBit, absdiff_eq_deviation]

/-- The bits that `DEMOD` and `EXTRACT` compute are those of the rule. -/
theorem demodRule_demodWindow (s : State) (off thr : Nat) :
    DemodRule s off thr (demodWindow off thr (bufWindow s s.config.winLen)) :=
  ⟨by rw [demodWindow_length, bufWindow_length], demodWindow_bufWindow_getElem s off thr s.config.winLen⟩

/-- A capture is in flight or unconsumed: one of the two flags is set (30_encoding.md R97). -/
theorem captureIdle_eq_false_iff (sc : Scheduler) :
    captureIdle sc = false ↔ sc.captureRunning = true ∨ sc.dataReady = true := by
  rw [← Bool.not_eq_true, captureIdle_iff, not_and_or, Bool.not_eq_false, Bool.not_eq_false]

/-- `DEMOD` with no capture in flight or unconsumed: one result record, nothing else changes (R131). -/
theorem exec_demod_of_idle (off : Half) (thr : BitVec 17) {s : State} (h : captureIdle s.sched = true) :
    exec (.demod off thr) s =
      .next (s.finish .done (.bits (demodWindow off.toNat thr.toNat (bufWindow s s.config.winLen)))) :=
  congrArg Host.Outcome.next (if_pos h)

/-- `DEMOD` while a capture is in flight or unconsumed: the status IGNORED, without a value (R97, R131). -/
theorem exec_demod_of_busy (off : Half) (thr : BitVec 17) {s : State} (h : captureIdle s.sched = false) :
    exec (.demod off thr) s = .next (s.finish .ignored .none) :=
  congrArg Host.Outcome.next (if_neg (ne_true_of_eq_false h))

/-- Settles O20: the two flags decide between the two ends of `DEMOD`, and the window's bits meet the rule. -/
theorem demodComparesEverySample : Obligations.DemodComparesEverySample := by
  intro off thr s
  constructor
  · intro hrun hready
    exact ⟨_, demodRule_demodWindow s off.toNat thr.toNat,
      exec_demod_of_idle off thr ((captureIdle_iff s.sched).mpr ⟨hrun, hready⟩)⟩
  · intro hbusy
    exact exec_demod_of_busy off thr ((captureIdle_eq_false_iff s.sched).mpr hbusy)

end Sys2Proof.Machine
end

section
/-! PROOF. The line codec (41_codec.md R141, R142). Below 19 the forward table is the code table, above it is empty; the
reverse table undoes the forward one because no codeword stands in it twice (R143 b). -/

namespace Sys2Proof.Machine

/-- Each of the 19 symbols has its entry of `CODE` as codeword (20_memory.md R62). -/
theorem encRom_of_lt (c : Config) (sym : Symbol) (h : sym.toNat < 19) : encRom c sym = some c.code[sym.toNat] := by
  have hlen : sym.toNat < c.code.toList.length := by rwa [Vector.length_toList]
  exact (List.getElem?_eq_getElem hlen).trans (congrArg some (Vector.getElem_toList hlen))

/-- A symbol code above 18 has no codeword (20_memory.md R62, 41_codec.md R145). -/
theorem encRom_of_ge (c : Config) (sym : Symbol) (h : 19 ≤ sym.toNat) : encRom c sym = none :=
  List.getElem?_eq_none (by rwa [Vector.length_toList])

/-- No byte is the codeword of two symbols (R143 b). -/
theorem code_injective {c : Config} (hwf : c.wf) {j k : Fin 19} (h : c.code[j] = c.code[k]) : j = k := by
  obtain ⟨-, -, -, -, -, -, -, hnodup, -⟩ := hwf
  have hjk : c.code.toList[j.val]'(by simp) = c.code.toList[k.val]'(by simp) := by simpa using h
  exact Fin.ext (hnodup.getElem_inj_iff.mp hjk)

/-- Decoding a symbol's codeword gives the symbol back: the one it finds can be no other (R144 a). -/
theorem decRom_code {c : Config} (hwf : c.wf) (k : Fin 19) : decRom c c.code[k] = BitVec.ofNat 5 k.val := by
  rcases decRom_cases c c.code[k] with ⟨j, hj, hdec⟩ | ⟨hnone, -⟩
  · rw [hdec, code_injective hwf hj]
  · exact absurd rfl (hnone k)

/-- A byte that is no codeword decodes to INVALID (R144 b); this needs no constraint on the table. -/
theorem decRom_of_not_codeword {c : Config} {b : Byte} (h : ∀ k : Fin 19, c.code[k] ≠ b) : decRom c b = symInvalid := by
  rcases decRom_cases c b with ⟨k, hk, -⟩ | ⟨-, hdec⟩
  · exact absurd hk (h k)
  · exact hdec

/-- `ENC48` of a symbol that has a codeword: DONE with it, nothing else changes (R141). -/
theorem exec_enc48_of_encRom_some {sym : Symbol} {s : State} {b : Byte} (h : encRom s.config sym = some b) :
    exec (.enc48 sym) s = .next (s.finish .done (.codeword b)) := by
  show execEnc48 sym s = _
  rw [execEnc48, h]

/-- `ENC48` of a symbol code that has none: IGNORED with 0x00, nothing else changes (R141). -/
theorem exec_enc48_of_encRom_none {sym : Symbol} {s : State} (h : encRom s.config sym = none) :
    exec (.enc48 sym) s = .next (s.finish .ignored (.codeword 0x00)) := by
  show execEnc48 sym s = _
  rw [execEnc48, h]

/-- `DEC84` reports the reverse table's entry, whatever it is, and changes nothing else (R142). -/
theorem exec_dec84 (b : Byte) (s : State) :
    exec (.dec84 b) s = .next (s.finish .done (.sym (decRom s.config b))) := rfl

/-- Settles O21: 19 divides the symbols with an entry in the forward table from those without. -/
theorem encodeSymbol : Obligations.EncodeSymbol := by
  intro sym s
  constructor
  · intro hlt
    exact exec_enc48_of_encRom_some (encRom_of_lt s.config sym hlt)
  · intro hge
    exact exec_enc48_of_encRom_none (encRom_of_ge s.config sym hge)

/-- Settles O22: a codeword decodes to its own symbol, since no other has it, and any other byte to INVALID. -/
theorem decodeByte : Obligations.DecodeByte := by
  intro b s hwf
  constructor
  · rintro k rfl
    rw [exec_dec84, decRom_code hwf]
    rfl
  · intro hnone
    rw [exec_dec84, decRom_of_not_codeword hnone]
    rfl

end Sys2Proof.Machine
end

section
/-! PROOF. The UartByteExtractor (42_extractor.md R157): each piece the scan computes is the one the rule asks for, so a
turn of the scan is a turn of the rule, and `EXTRACT` ends with the record of the scan exactly when no capture is in
flight or unconsumed. -/

namespace Sys2Proof.Machine
open Sys2Proof.Claims

/-- The start search answers the first start of the rule (42_extractor.md R157). -/
theorem findStart_eq_some_iff_firstStart (bits : List Bool) (pos i : Nat) :
    findStart bits pos = some i ↔ FirstStart bits pos i := by
  rw [findStart_eq_some, and_assoc]
  rfl

/-- The last of the 8 sample points is `start + 34`: a frame that fits has them all in the window (R162, R163). -/
theorem samplePoint_lt {start k len : Nat} (hk : k < 8) (hfit : start + 34 < len) : samplePoint start k < len := by
  unfold samplePoint
  omega

/-- The codeword of a frame that fits: bit `k` is the window's bit at point `k` (R163). -/
theorem getElem?_samplePoint {bits : List Bool} {start k : Nat} (hk : k < 8) (hfit : start + 34 < bits.length) :
    bits[samplePoint start k]? = some ((frameCode bits start).getLsbD k) := by
  have hlt : samplePoint start k < bits.length := samplePoint_lt hk hfit
  rw [frameCode_bit bits start k hk]
  simp [bitAt, hlt]

/-- A direction step inside the window is what the bit adds to the count above the baseline, less what it adds to the
count below (R167). -/
theorem directionStep_eq_sub {bits : List Bool} {samples : List Nat} {start k : Nat} (off : Nat)
    (hlt : samplePoint start k < bits.length) :
    directionStep bits samples off start k =
      ((bits[samplePoint start k]? == some false &&
          decide (off < sampleAt samples (samplePoint start k))).toNat : Int) -
      ((bits[samplePoint start k]? == some false &&
          decide (sampleAt samples (samplePoint start k) < off)).toNat : Int) := by
  unfold directionStep
  cases hbit : bitAt bits (samplePoint start k) with
  | true => simp [(bitAt_eq_true_iff _ _).mp hbit]
  | false =>
    rw [(bitAt_eq_false_iff _ _ hlt).mp hbit]
    rcases Nat.lt_trichotomy off (sampleAt samples (samplePoint start k)) with habove | heq | hbelow
    · simp [habove, Nat.lt_asymm habove]
    · simp [← heq]
    · simp [hbelow, Nat.lt_asymm hbelow]

/-- Summing steps that each count for one predicate and against another gives the difference of the two counts. -/
theorem foldl_add_eq_countP_sub {α : Type} {step : α → Int} {p q : α → Bool} {l : List α}
    (hstep : ∀ x ∈ l, step x = ((p x).toNat : Int) - ((q x).toNat : Int)) (z : Int) :
    l.foldl (fun acc x => acc + step x) z = z + ((l.countP p : Int) - (l.countP q : Int)) := by
  induction l generalizing z with
  | nil => simp
  | cons x xs ih =>
    have hx : step x = ((p x).toNat : Int) - ((q x).toNat : Int) := hstep x List.mem_cons_self
    rw [List.foldl_cons, ih fun y hy => hstep y (List.mem_cons_of_mem x hy), hx, List.countP_cons, List.countP_cons]
    simp only [Bool.toNat, Bool.cond_eq_ite]
    push_cast
    ring

/-- The direction steps of a frame that fits add up to the rule's difference of counts (R167). -/
theorem frameDirection_eq_directionOfFrame {bits : List Bool} {samples : List Nat} {sample : Nat → Nat} {start : Nat}
    (off : Nat) (hsample : ∀ i < bits.length, sampleAt samples i = sample i) (hfit : start + 34 < bits.length) :
    frameDirection bits samples off start = directionOfFrame bits sample off start := by
  unfold frameDirection directionOfFrame
  rw [foldl_add_eq_countP_sub, Int.zero_add]
  intro k hk
  have hlt : samplePoint start k < bits.length := samplePoint_lt (List.mem_range.mp hk) hfit
  rw [directionStep_eq_sub off hlt, hsample _ hlt]
  rfl

/-- The rule's end of a scan: no frame is left to take, or no start has a frame that fits (R159, R161, R162). -/
theorem scanRule_nil {c : Config} {bits : List Bool} {sample : Nat → Nat} {off left pos : Nat}
    (h : left = 0 ∨ ∀ i, FirstStart bits pos i → bits.length - 1 < i + 1 + 34) :
    ScanRule c bits sample off left pos 0 [] := by
  cases left <;> exact ⟨rfl, h⟩

/-- The rule's turn of a scan, for the frame the model makes at a start that fits (R157, R162 to R165). -/
theorem scanRule_cons {c : Config} {bits : List Bool} {samples : List Nat} {sample : Nat → Nat} {off left pos i : Nat}
    {dc : Int} {rest : List Frame} (hsample : ∀ i < bits.length, sampleAt samples i = sample i)
    (hstart : FirstStart bits pos i) (hfit : i + 1 + 34 < bits.length)
    (hrest : ScanRule c bits sample off left (i + 1 + 39) dc rest) :
    ScanRule c bits sample off (left + 1) pos (frameDirection bits samples off (i + 1) + dc)
      (frameAt c bits (i + 1) :: rest) :=
  ⟨Nat.le_add_left 1 i, hstart, Nat.le_sub_one_of_lt hfit, rfl, fun _ hk => getElem?_samplePoint hk hfit, rfl, dc,
    hrest, by rw [frameDirection_eq_directionOfFrame off hsample hfit]; rfl⟩

/-- The scan follows the rule, turn by turn (R157). -/
theorem scanRule_scanFrames (c : Config) {bits : List Bool} {samples : List Nat} {sample : Nat → Nat} (off : Nat)
    (hsample : ∀ i < bits.length, sampleAt samples i = sample i) (left pos : Nat) :
    ScanRule c bits sample off left pos (scanFrames c bits samples off left pos).directionCount
      (scanFrames c bits samples off left pos).frames := by
  induction left generalizing pos with
  | zero => exact scanRule_nil (.inl rfl)
  | succ left ih =>
    rcases scanFrames_cases c bits samples off (left + 1) pos with
      ⟨hscan, hzero | hnone | ⟨i, hsome, hlong⟩⟩ | ⟨left', i, hleft, hsome, hfit, hscan⟩ <;> rw [hscan]
    · exact absurd hzero (Nat.succ_ne_zero left)
    · refine scanRule_nil (.inr fun j hj => ?_)
      rw [(findStart_eq_some_iff_firstStart bits pos j).mpr hj] at hnone
      cases hnone
    · refine scanRule_nil (.inr fun j hj => ?_)
      rw [(findStart_eq_some_iff_firstStart bits pos j).mpr hj] at hsome
      cases hsome
      omega
    · obtain rfl : left = left' := Nat.succ.inj hleft
      exact scanRule_cons hsample ((findStart_eq_some_iff_firstStart bits pos i).mp hsome) hfit (ih _)

/-- The record that `EXTRACT` computes from BUF is that of the rule (R157, R171). -/
theorem extractRule_extractBuffer (s : State) (off thr : Nat) : ExtractRule s off thr (extractBuffer s off thr) := by
  refine ⟨_, demodRule_demodWindow s off thr, scanRule_scanFrames s.config off (fun i hi => ?_) 8 0⟩
  rw [demodWindow_length, bufWindow_length] at hi
  exact sampleAt_bufWindow s s.config.winLen i hi

/-- `EXTRACT` with no capture in flight or unconsumed: one result record, nothing else changes (R157). -/
theorem exec_extract_of_idle (off : Half) (thr : BitVec 17) {s : State} (h : captureIdle s.sched = true) :
    exec (.extract off thr) s = .next (s.finish .done (.frames (extractBuffer s off.toNat thr.toNat))) :=
  congrArg Host.Outcome.next (if_pos h)

/-- `EXTRACT` while a capture is in flight or unconsumed: the status IGNORED, without a value (R97, R157). -/
theorem exec_extract_of_busy (off : Half) (thr : BitVec 17) {s : State} (h : captureIdle s.sched = false) :
    exec (.extract off thr) s = .next (s.finish .ignored .none) :=
  congrArg Host.Outcome.next (if_neg (ne_true_of_eq_false h))

/-- Settles O24: the two flags decide between the two ends of `EXTRACT`, and the scan of BUF follows the rule. -/
theorem extractFollowsTheScan : Obligations.ExtractFollowsTheScan := by
  intro off thr s
  constructor
  · intro hrun hready
    exact ⟨_, extractRule_extractBuffer s off.toNat thr.toNat,
      exec_extract_of_idle off thr ((captureIdle_iff s.sched).mpr ⟨hrun, hready⟩)⟩
  · intro hbusy
    exact exec_extract_of_busy off thr ((captureIdle_eq_false_iff s.sched).mpr hbusy)

end Sys2Proof.Machine
end

section
/-! PROOF. The slots of a port under `SLOTUPD` (43_assembler.md R190, R191): the lowest slot that qualifies is the one the
search answers, so a sighting meets exactly one of three cases: refresh, claim, drop. -/

namespace Sys2Proof.Machine

/-- The search answers the first slot with that address, and no other. -/
theorem findSlot_eq_some {sl : Vector Slot 4} {addr : BitVec 14} {k : SlotIdx} (hk : sl[k].address = addr)
    (hfirst : ∀ j : SlotIdx, j < k → sl[j].address ≠ addr) : findSlot sl addr = some k := by
  rcases findSlot_cases sl addr with ⟨k', hfind, hk', hfirst'⟩ | ⟨-, hnone⟩
  · rcases lt_trichotomy k' k with hlt | rfl | hgt
    · exact absurd hk' (hfirst k' hlt)
    · exact hfind
    · exact absurd hk (hfirst' k hgt)
  · exact absurd hk (hnone k)

/-- The search fails when no slot has that address. -/
theorem findSlot_eq_none {sl : Vector Slot 4} {addr : BitVec 14} (hnone : ∀ k : SlotIdx, sl[k].address ≠ addr) :
    findSlot sl addr = none := by
  rcases findSlot_cases sl addr with ⟨k, -, hk, -⟩ | ⟨hfind, -⟩
  · exact absurd hk (hnone k)
  · exact hfind

/-- A sighting of an address that a slot holds refreshes the first such slot (R190). -/
theorem updateSlots_of_match {sl : Vector Slot 4} {addr : BitVec 14} {k : SlotIdx} (dir : BitVec 2) (now : Millis)
    (hk : sl[k].address = addr) (hfirst : ∀ j : SlotIdx, j < k → sl[j].address ≠ addr) :
    updateSlots sl addr dir now = sl.set k.val (refreshSlot dir now sl[k]) k.isLt := by
  simp only [updateSlots, findSlot_eq_some hk hfirst]

/-- A new address claims the first empty slot (R190). -/
theorem updateSlots_of_empty {sl : Vector Slot 4} {addr : BitVec 14} {k : SlotIdx} (dir : BitVec 2) (now : Millis)
    (hnew : ∀ k : SlotIdx, sl[k].address ≠ addr) (hk : sl[k].address = 0)
    (hfirst : ∀ j : SlotIdx, j < k → sl[j].address ≠ 0) :
    updateSlots sl addr dir now = sl.set k.val (claimSlot addr dir now) k.isLt := by
  simp only [updateSlots, findSlot_eq_none hnew, findSlot_eq_some hk hfirst]

/-- A new address that meets a full table is dropped (R191). -/
theorem updateSlots_of_full {sl : Vector Slot 4} {addr : BitVec 14} (dir : BitVec 2) (now : Millis)
    (hnew : ∀ k : SlotIdx, sl[k].address ≠ addr) (hfull : ∀ k : SlotIdx, sl[k].address ≠ 0) :
    updateSlots sl addr dir now = sl := by
  simp only [updateSlots, findSlot_eq_none hnew, findSlot_eq_none hfull]

/-- Writing back the slots a port has changes nothing. -/
theorem setSlots_self (s : State) (p : PortIdx) : s.setSlots p s.slots[p] = s := by
  simp [State.setSlots]

/-- `SLOTUPD` answers a state in which only the slots of its port may differ. -/
theorem exec_slotupd (p : PortIdx) (addr : BitVec 14) (dir : BitVec 2) (s : State) :
    exec (.slotupd p addr dir) s = .next (s.setSlots p (updateSlots s.slots[p] addr dir s.inp.now)) := rfl

/-- `SLOTUPD` of a new address on a full table leaves the whole state as it is (R191). -/
theorem exec_slotupd_of_full {p : PortIdx} {addr : BitVec 14} {s : State} (dir : BitVec 2)
    (hnew : ∀ k : SlotIdx, s.slots[p][k].address ≠ addr) (hfull : ∀ k : SlotIdx, s.slots[p][k].address ≠ 0) :
    exec (.slotupd p addr dir) s = .next s := by
  rw [exec_slotupd, updateSlots_of_full dir s.inp.now hnew hfull, setSlots_self]

/-- Settles O35: the three cases of the search for the slot. -/
theorem slotupdRule : Obligations.SlotupdRule := by
  intro p addr dir s
  refine ⟨fun k hk hfirst => ?_, fun hnew => ⟨fun k hk hfirst => ?_, fun hfull => ?_⟩⟩
  · rw [exec_slotupd, updateSlots_of_match dir s.inp.now hk hfirst, refreshSlot_eq, hk]
    rfl
  · rw [exec_slotupd, updateSlots_of_empty dir s.inp.now hnew hk hfirst]
    rfl
  · exact exec_slotupd_of_full dir hnew hfull

/-- The table of a port after the first `n` of the addresses `a`, sighted with the directions `d`: they stand in the
slots 0 to `n - 1` in the order seen, and the other slots are empty. -/
def HoldsFirst (a : Fin 5 → BitVec 14) (d : Fin 5 → BitVec 2) (n : Nat) (sl : Vector Slot 4) : Prop :=
  ∀ k : SlotIdx,
    (k.val < n → sl[k].address = a k.castSucc ∧ sl[k].direction = d k.castSucc) ∧ (n ≤ k.val → sl[k].address = 0)

section
variable {a : Fin 5 → BitVec 14} {d : Fin 5 → BitVec 2} (hne : ∀ j, a j ≠ 0) (hinj : ∀ j k, j ≠ k → a j ≠ a k)
include hne hinj

/-- While there is room, the next address is new, and the first empty slot is the one after those taken. -/
theorem HoldsFirst.updateSlots_next {sl : Vector Slot 4} {j : SlotIdx} (now : Millis) (h : HoldsFirst a d j.val sl) :
    HoldsFirst a d (j.val + 1) (updateSlots sl (a j.castSucc) (d j.castSucc) now) := by
  have hnew (k : SlotIdx) : sl[k].address ≠ a j.castSucc := by
    obtain ⟨htaken, hempty⟩ := h k
    rcases Nat.lt_or_ge k.val j.val with hlt | hge
    · obtain ⟨haddr, -⟩ := htaken hlt
      rw [haddr]
      exact hinj _ _ ((Fin.castSucc_injective 4).ne (Fin.ne_of_lt hlt))
    · rw [hempty hge]
      exact (hne _).symm
  have hfirst (k : SlotIdx) (hk : k < j) : sl[k].address ≠ 0 := by
    obtain ⟨htaken, -⟩ := h k
    obtain ⟨haddr, -⟩ := htaken hk
    rw [haddr]
    exact hne _
  obtain ⟨-, hempty⟩ := h j
  rw [updateSlots_of_empty _ now hnew (hempty le_rfl) hfirst]
  intro k
  by_cases hk : k = j
  · subst hk
    simp [claimSlot]
  · have hkj : j.val ≠ k.val := fun hval => hk (Fin.ext hval.symm)
    have hkeep : (sl.set j.val (claimSlot (a j.castSucc) (d j.castSucc) now) j.isLt)[k] = sl[k] :=
      Vector.getElem_set_ne j.isLt k.isLt hkj
    obtain ⟨htaken, hempty⟩ := h k
    rw [hkeep]
    exact ⟨fun hlt => htaken (by omega), fun hle => hempty (by omega)⟩

/-- A sighting of the next address answers a state whose port holds one address more. -/
theorem HoldsFirst.exec_slotupd_next {p : PortIdx} {s : State} (j : SlotIdx) (h : HoldsFirst a d j.val s.slots[p]) :
    ∃ t, exec (.slotupd p (a j.castSucc) (d j.castSucc)) s = .next t ∧ HoldsFirst a d (j.val + 1) t.slots[p] := by
  refine ⟨_, exec_slotupd p _ _ s, ?_⟩
  rw [setSlots_get, if_pos rfl]
  exact h.updateSlots_next hne hinj s.inp.now

end

/-- Settles O36: each of the first four addresses extends the table by one slot; then it is full and the fifth is new. -/
theorem fifthAddressIsDropped : Obligations.FifthAddressIsDropped := by
  refine ⟨fun p addr dir s h => exec_slotupd_of_full dir (fun k => (h k).2) fun k => (h k).1, ?_⟩
  intro p s a d hempty hne hinj
  have hstart : HoldsFirst a d 0 s.slots[p] := fun k => ⟨fun hlt => absurd hlt k.val.not_lt_zero, fun _ => hempty k⟩
  obtain ⟨t1, hexec1, hold1⟩ := HoldsFirst.exec_slotupd_next hne hinj 0 hstart
  obtain ⟨t2, hexec2, hold2⟩ := HoldsFirst.exec_slotupd_next hne hinj 1 hold1
  obtain ⟨t3, hexec3, hold3⟩ := HoldsFirst.exec_slotupd_next hne hinj 2 hold2
  obtain ⟨t4, hexec4, hold4⟩ := HoldsFirst.exec_slotupd_next hne hinj 3 hold3
  have hheld (k : SlotIdx) : t4.slots[p][k].address = a k.castSucc ∧ t4.slots[p][k].direction = d k.castSucc :=
    (hold4 k).1 k.isLt
  have hdrop : exec (.slotupd p (a 4) (d 4)) t4 = .next t4 :=
    exec_slotupd_of_full (d 4) (fun k => (hheld k).1 ▸ hinj _ _ (Fin.castSucc_ne_last k)) fun k => (hheld k).1 ▸ hne _
  exact ⟨t1, t2, t3, t4, hexec1, hexec2, hexec3, hexec4, hdrop, hheld⟩

end Sys2Proof.Machine
end

section
/-! PROOF. The pairing of a window (43_assembler.md R184 to R189): what the rule accepts, the fields of a pair and the
address of two pairs are those that `PAIR` computes. -/

namespace Sys2Proof.Machine
open Sys2Proof.Claims

/-- The model accepts the pair of a window exactly when the rule does (R185, R186); the gaps are compared by a
truncated difference in the one and by a sum in the other. -/
theorem acceptedPair_eq_some_iff_pairAccepted (r : FrameRecord) (f0 f1 : Frame) :
    acceptedPair r = some (f0, f1) ↔ PairAccepted r f0 f1 := by
  have hgap : f1.start - f0.stop < 10 ↔ f1.start < f0.stop + 10 := by omega
  have hthird (f2 : Frame) : 10 ≤ f2.start - f1.stop ↔ f1.stop + 10 ≤ f2.start := by omega
  simp only [acceptedPair_iff, PairAccepted, hgap, hthird]

/-- A window without an accepted pair has none for the model. -/
theorem acceptedPair_eq_none {r : FrameRecord} (h : ¬ ∃ f0 f1, PairAccepted r f0 f1) : acceptedPair r = none :=
  Option.eq_none_iff_forall_ne_some.mpr fun (f0, f1) hsome =>
    h ⟨f0, f1, (acceptedPair_eq_some_iff_pairAccepted r f0 f1).mp hsome⟩

/-- The table index of two data symbols is `16 * n0 + n1` (R182). -/
theorem pairIndex_toNat {s0 s1 : Symbol} (h0 : s0.toNat ≤ 15) (h1 : s1.toNat ≤ 15) :
    (s0.setWidth 4 ++ s1.setWidth 4).toNat = 16 * s0.toNat + s1.toNat := by
  have hs0 : (s0.setWidth 4).toNat = s0.toNat := by rw [BitVec.toNat_setWidth]; omega
  have hs1 : (s1.setWidth 4).toNat = s1.toNat := by rw [BitVec.toNat_setWidth]; omega
  rw [BitVec.toNat_append, ← Nat.shiftLeft_add_eq_or_of_lt (s1.setWidth 4).isLt, Nat.shiftLeft_eq, hs0, hs1]
  omega

/-- What `chan[p]` holds after an accepted pair is the entry of `PAIR_FIELDS` (R182, R184). -/
theorem chanOfPair_eq {c : Config} {f0 f1 : Frame} {id : BitVec 4} {val : BitVec 8} (h0 : f0.sym.toNat ≤ 15)
    (h1 : f1.sym.toNat ≤ 15) (hentry : c.pairFields.toList[16 * f0.sym.toNat + f1.sym.toNat]? = some (id, val)) :
    chanOfPair c f0 f1 = { lastSymbolId := id, lastSymbolValue := val } := by
  have hfields : pairFieldsOf c f0.sym f1.sym = (id, val) := by
    rw [← pairIndex_toNat h0 h1] at hentry
    obtain ⟨_, hget⟩ := List.getElem?_eq_some_iff.mp hentry
    rw [← hget, Vector.getElem_toList]
    rfl
  rw [chanOfPair, hfields]

/-- Two successive pairs make, for the model, exactly the address of the rule (R187). -/
theorem pairedAddress_eq_some_iff_makesAddress (prev cur : Chan) (addr : BitVec 14) :
    pairedAddress prev cur = some addr ↔ MakesAddress prev cur addr := by
  have hvalue (h l : BitVec 8) : assembleAddress h l = addr ↔ addr.toNat = h.toNat % 64 * 256 + l.toNat := by
    rw [← assembleAddress_toNat, ← BitVec.toNat_inj, eq_comm]
  unfold MakesAddress
  rcases pairedAddress_cases prev cur with ⟨hprev, hcur, heq⟩ | ⟨hprev, hcur, heq⟩ | ⟨hhigh, hlow, heq⟩ <;> rw [heq]
  · simp [hprev, hcur, hvalue]
  · simp [hprev, hcur, hvalue]
  · simp only [← and_assoc, hhigh, hlow, false_and, or_false, reduceCtorEq]

/-- The model's direction of a count is the rule's (R189). -/
theorem directionOf_eq_directionCode (dc : Int) : directionOf dc = directionCode dc := rfl

/-- `PAIR` of a window without an accepted pair resets the channel state of its port (R184). -/
theorem exec_pair_of_rejected (p : PortIdx) {r : FrameRecord} (s : State) (h : acceptedPair r = none) :
    exec (.pair p r) s = .next (s.setChan p Chan.reset) := by
  show Host.Outcome.next (pair p r s) = _
  rw [pair, h]

section
variable (p : PortIdx) {r : FrameRecord} {s : State} {f0 f1 : Frame} (hacc : acceptedPair r = some (f0, f1))
include hacc

/-- `PAIR` of an accepted pair that completes a valid address runs `SLOTUPD` on the state that carries the pair (R184). -/
theorem exec_pair_of_address {addr : BitVec 14}
    (haddr : pairedAddress s.chans[p] (chanOfPair s.config f0 f1) = some addr) (h0 : addr ≠ 0) (h255 : addr ≠ 255) :
    exec (.pair p r) s = .next (slotupd p addr (directionOf r.directionCount)
      (s.setChan p (chanOfPair s.config f0 f1))) := by
  show Host.Outcome.next (pair p r s) = _
  simp only [pair, hacc, haddr, h0, h255, or_self, if_false]

/-- `PAIR` of an accepted pair that completes no valid address only carries the pair (R184, R188). -/
theorem exec_pair_of_no_address
    (hnone : ∀ addr, pairedAddress s.chans[p] (chanOfPair s.config f0 f1) = some addr → addr = 0 ∨ addr = 255) :
    exec (.pair p r) s = .next (s.setChan p (chanOfPair s.config f0 f1)) := by
  show Host.Outcome.next (pair p r s) = _
  cases haddr : pairedAddress s.chans[p] (chanOfPair s.config f0 f1) with
  | none => simp only [pair, hacc, haddr]
  | some addr => simp only [pair, hacc, haddr, hnone addr haddr, if_true]

end

/-- Settles O34: the window is rejected, or its pair completes a valid address, or it is carried only. -/
theorem pairRule : Obligations.PairRule := by
  intro p r s
  refine ⟨fun hrej => exec_pair_of_rejected p s (acceptedPair_eq_none hrej), ?_⟩
  intro f0 f1 id val hpair hentry
  have hacc : acceptedPair r = some (f0, f1) := (acceptedPair_eq_some_iff_pairAccepted r f0 f1).mpr hpair
  obtain ⟨_, _, h0, h1, _, _⟩ := hpair
  have hchan : chanOfPair s.config f0 f1 = { lastSymbolId := id, lastSymbolValue := val } :=
    chanOfPair_eq h0 h1 hentry
  simp only [← pairedAddress_eq_some_iff_makesAddress, ← hchan]
  exact ⟨fun addr haddr hne0 hne255 => ⟨_, rfl, exec_pair_of_address p hacc haddr hne0 hne255⟩,
    fun hnone => exec_pair_of_no_address p hacc hnone⟩

end Sys2Proof.Machine
end

section
/-! PROOF. The sweeps over every slot of every port: expiry (43_assembler.md R193) and notification (R195). -/

namespace Sys2Proof.Machine
open Sys2Proof.Claims

/-- A slot expires when it holds an address and its time has reached the timeout (R193, R194). -/
theorem slotExpired_iff (c : Config) (now : Millis) (sl : Slot) :
    slotExpired c now sl = true ↔
      sl.address ≠ 0 ∧ c.railcomTimeoutMs.toNat ≤ since now sl.lastSeenTimestamp := by
  rw [slotExpired, Bool.and_eq_true, deadlineMet_iff, elapsed_eq, bne_iff_ne]
  rfl

/-- An expired slot is emptied and marked, its time kept (R193). -/
theorem expireSlot_of_expired {c : Config} {now : Millis} {sl : Slot} (h : slotExpired c now sl = true) :
    expireSlot c now sl = { sl with address := 0, direction := 0, reported := false } := if_pos h

/-- A slot that has not expired is kept (R193). -/
theorem expireSlot_of_not_expired {c : Config} {now : Millis} {sl : Slot} (h : ¬ slotExpired c now sl = true) :
    expireSlot c now sl = sl := if_neg h

/-- Settles O37: expiry decides each slot by itself. -/
theorem slotexpRule : Obligations.SlotexpRule := by
  intro s
  refine ⟨_, rfl, fun p k => ?_⟩
  simp only [Fin.getElem_fin, Vector.getElem_ofFn]
  constructor
  · intro haddr hdue
    exact expireSlot_of_expired ((slotExpired_iff _ _ _).mpr ⟨haddr, hdue⟩)
  · intro hkeep
    refine expireSlot_of_not_expired fun hexp => ?_
    obtain ⟨haddr, hdue⟩ := (slotExpired_iff _ _ _).mp hexp
    exact hkeep.elim haddr (Nat.not_lt.mpr hdue)

/-- The packed slot word is the one the statements compute on naturals (30_encoding.md R110). -/
theorem packSlot_eq_slotWord (sl : Slot) : packSlot sl = slotWord sl := by
  rw [slotWord, ← packSlot_toNat, BitVec.ofNat_toNat, BitVec.setWidth_eq]

/-- The two records of a port with a slot not reported, in the terms of the rule (R195). -/
theorem addrReportRecords_eq (s : State) (p : PortIdx) :
    addrReportRecords s p =
      if ∃ k : SlotIdx, s.slots[p][k].reported = false then
        [.tx (.accData s.cfg.networkId s.cfg.moduleAddress (BitVec.ofNat 8 p.val) 0x11
           (slotWord s.slots[p][0]) (slotWord s.slots[p][1])),
         .tx (.accData s.cfg.networkId s.cfg.moduleAddress (BitVec.ofNat 8 p.val) 0x12
           (slotWord s.slots[p][2]) (slotWord s.slots[p][3]))]
      else [] := by
  simp only [addrReportRecords, accDataRecord, packSlot_eq_slotWord, slotsPending_iff]
  rfl

/-- Settles O38: a port is notified when a slot of it is pending, and after the sweep every slot is reported, pending
or not. -/
theorem addrreportRule : Obligations.AddrreportRule := by
  intro s
  have hslots : (Vector.ofFn fun p : PortIdx => reportedSlots s.slots[p]) =
      Vector.ofFn fun p => Vector.ofFn fun k => { s.slots[p][k] with reported := true } := by
    simp only [reportedSlots_eq]
  show Host.Outcome.next (addrreport s) = _
  rw [addrreport, hslots, funext (addrReportRecords_eq s)]
  rfl

end Sys2Proof.Machine
end

section
/-! PROOF. The announcements of the occupancy detector (44_occupancy.md R214): one pass over the ports both chooses the
records and marks the ports, each by the same test of the port as it entered `OCCDEB`. -/

namespace Sys2Proof.Machine
open Sys2Proof.Claims

/-- The model announces a port exactly when its pending report is due by the rule; `>=`, so a delay of 0 is due at once
(R214, R215). -/
theorem announceDue_iff (cfg : ModuleConfig) (now : Millis) (pr : PortRegs) :
    announceDue cfg now pr = true ↔ AnnounceDue cfg now pr := by
  rw [announceDue, Bool.and_eq_true, Bool.not_eq_true', deadlineMet_iff, elapsed_eq]
  rfl

/-- Appending a record per due element lists the records of the due elements, in the same order. -/
theorem flatMap_singleton_if {α β : Type} (due : α → Bool) (rec : α → β) (l : List α) :
    (l.flatMap fun a => if due a then [rec a] else []) = (l.filter due).map rec := by
  induction l with
  | nil => rfl
  | cons a rest ih => cases h : due a <;> simp [h, ih]

/-- The records of `OCCDEB` over any list of ports: those of the due ports, with their raw states (R108, R111, R214). -/
theorem flatMap_announceRecords (s : State) (l : List PortIdx) :
    l.flatMap (announceRecords s) =
      (l.filter fun p => announceDue s.cfg s.inp.now s.ports[p]).map fun p =>
        .tx (.port6 s.cfg.networkId s.cfg.moduleAddress (BitVec.ofNat 8 p.val) 0x01
          (if s.ports[p].state then 0x0001 else 0x0000)) :=
  flatMap_singleton_if (fun p : PortIdx => announceDue s.cfg s.inp.now s.ports[p]) _ l

/-- Settles O40: the ports that are due in the entered state are the ones announced and the ones marked. -/
theorem occdebRule : Obligations.OccdebRule := by
  intro s
  refine ⟨Vector.ofFn fun p => announcePort s.cfg s.inp.now s.ports[p],
    fun p => announceDue s.cfg s.inp.now s.ports[p], fun p => ?_, fun p => ?_, ?_⟩
  · exact announceDue_iff s.cfg s.inp.now s.ports[p]
  · exact Vector.getElem_ofFn p.isLt
  · show Host.Outcome.next (occdeb s) = _
    rw [occdeb, flatMap_announceRecords]
    rfl

end Sys2Proof.Machine
end

section
/-! PROOF. Captures started and handed over: `TRIGGER`, `CAPDONE` and the two cursors (45_scheduler.md R231 to R236). An
accepted trigger is `startCapture` on the scheduler; what the cursors do over many triggers is an induction on that. -/

namespace Sys2Proof.Machine
open Sys2Proof.Claims

/-- No capture is in flight or unconsumed: both flags are 0 (R240). -/
theorem captureIdle_iff_flags (s : State) : captureIdle s.sched = true ↔ flags s = (false, false) := by
  rw [captureIdle_iff, flags, Prod.mk.injEq]

/-- The scheduler after the last `CUTOUT` trigger of a port's turn (R231, R233). -/
theorem startCapture_cutout_of_last {c : Config} {sc : Scheduler} (h : sc.rcCount + 1 = c.maxConsec) :
    startCapture c .cutout sc =
      { sc with rcCount := 0, rcCursor := sc.rcCursor + 1, capPort := sc.rcCursor, capPurpose := .railcom,
                captureRunning := true } := if_pos h

/-- The scheduler after any other `CUTOUT` trigger (R231, R233). -/
theorem startCapture_cutout_of_not_last {c : Config} {sc : Scheduler} (h : sc.rcCount + 1 ≠ c.maxConsec) :
    startCapture c .cutout sc =
      { sc with rcCount := sc.rcCount + 1, capPort := sc.rcCursor, capPurpose := .railcom,
                captureRunning := true } := if_neg h

/-- An accepted `TRIGGER`: the scheduler started on its capture, one `ARM` record and DONE, nothing else (R231). -/
theorem exec_trigger_of_idle (kind : Boundary) {s : State} (hb : s.booted = true) (hidle : captureIdle s.sched = true) :
    exec (.trigger kind) s = .next { s with
      sched := startCapture s.config kind s.sched
      out := s.out ++ [.arm (startCapture s.config kind s.sched).capPort (startCapture s.config kind s.sched).capPurpose,
        status .done] } := by
  have haccept : exec (.trigger kind) s = .next ((armCapture kind s).finish .done .none) :=
    congrArg Host.Outcome.next (if_pos (by rw [hb, hidle]; rfl))
  rw [haccept, State.finish, State.emit, armCapture_out, List.append_assoc]
  rfl

/-- A `TRIGGER` before `BOOT`, or while a capture is in flight or unconsumed: the status IGNORED only (R231). -/
theorem exec_trigger_of_ignored (kind : Boundary) {s : State} (h : s.booted = false ∨ captureIdle s.sched = false) :
    exec (.trigger kind) s = .next (s.finish .ignored .none) :=
  congrArg Host.Outcome.next (if_neg (by rcases h with h | h <;> simp [h]))

/-- `CAPDONE` with a capture in flight: the two flags and DONE (R236). -/
theorem exec_capdone_of_running {s : State} (hb : s.booted = true) (hrun : s.sched.captureRunning = true) :
    exec .capdone s =
      .next ({ s with sched := { s.sched with captureRunning := false, dataReady := true } }.finish .done .none) :=
  congrArg Host.Outcome.next (if_pos (by rw [hb, hrun]; rfl))

/-- `CAPDONE` before `BOOT` or with no capture in flight: the status IGNORED only (R236). -/
theorem exec_capdone_of_ignored {s : State} (h : s.booted = false ∨ s.sched.captureRunning = false) :
    exec .capdone s = .next (s.finish .ignored .none) :=
  congrArg Host.Outcome.next (if_neg (by rcases h with h | h <;> simp [h]))

/-- Settles O27: an accepted trigger, by its kind and by whether it is the last of the port's turn; else IGNORED. -/
theorem triggerArmsTheNextCapture : Obligations.TriggerArmsTheNextCapture := by
  intro s
  constructor
  · intro hb hrun hready
    have haccept (kind : Boundary) := exec_trigger_of_idle kind hb ((captureIdle_iff s.sched).mpr ⟨hrun, hready⟩)
    refine ⟨fun hlast => ?_, fun hmore => ?_, haccept .idle⟩
    · rw [haccept, startCapture_cutout_of_last hlast]
    · rw [haccept, startCapture_cutout_of_not_last hmore]
  · intro hbusy kind
    rw [← captureIdle_eq_false_iff] at hbusy
    exact exec_trigger_of_ignored kind hbusy

/-- Settles O28: `CAPDONE` is accepted, or IGNORED. -/
theorem capdoneHandsOverTheBuffer : Obligations.CapdoneHandsOverTheBuffer :=
  fun _ => ⟨exec_capdone_of_running, exec_capdone_of_ignored⟩

/-- The scheduler after an accepted `TRIGGER`, for any state it answers. -/
theorem sched_of_exec_trigger {kind : Boundary} {s t : State} (hb : s.booted = true) (hflags : flags s = (false, false))
    (ht : exec (.trigger kind) s = .next t) : t.sched = startCapture s.config kind s.sched := by
  rw [exec_trigger_of_idle kind hb ((captureIdle_iff_flags s).mpr hflags)] at ht
  cases ht
  rfl

/-- A cursor that advances by one modulo 8 at each turn, counted from its start. -/
theorem cursor_val_of_advances {cur : Nat → PortIdx} (h : ∀ k, cur (k + 1) = cur k + 1) (k : Nat) :
    (cur k).val = ((cur 0).val + k) % 8 := by
  induction k with
  | zero => exact (Nat.mod_eq_of_lt (cur 0).isLt).symm
  | succ k ih =>
    rw [h, Fin.val_add, ih]
    show (((cur 0).val + k) % 8 + 1) % 8 = ((cur 0).val + (k + 1)) % 8
    omega

/-- A cursor that advances by one modulo 8 at each turn is at each port in exactly one of the first eight turns. -/
theorem existsUnique_turn_of_advances {cur : Nat → PortIdx} (h : ∀ k, cur (k + 1) = cur k + 1) (p : PortIdx) :
    ∃! k, k < 8 ∧ cur k = p := by
  have hval := cursor_val_of_advances h
  have hstart := (cur 0).isLt
  refine ⟨(p.val + 8 - (cur 0).val) % 8, ⟨Nat.mod_lt _ (by decide), Fin.ext ?_⟩, fun k ⟨hk, hkp⟩ => ?_⟩
  · rw [hval]
    omega
  · have hpval : p.val = ((cur 0).val + k) % 8 := by rw [← hkp, hval]
    omega

/-- Settles O32: each accepted `IDLE` trigger captures the cursor's port and advances the cursor. -/
theorem currentCursorVisitsEveryPort : Obligations.CurrentCursorVisitsEveryPort := by
  intro seq hseq
  have hadvance (k : Nat) : (seq (k + 1)).sched.csCursor = (seq k).sched.csCursor + 1 := by
    obtain ⟨hb, hflags, t, ht, hnext⟩ := hseq k
    rw [hnext, sched_of_exec_trigger hb hflags ht]
    rfl
  have hcaptures (k : Nat) (p : PortIdx) :
      (∃ t, exec (.trigger .idle) (seq k) = .next t ∧ t.sched.capPort = p ∧ t.sched.capPurpose = .current) ↔
        (seq k).sched.csCursor = p := by
    obtain ⟨hb, hflags, t, ht, -⟩ := hseq k
    constructor
    · rintro ⟨u, hu, rfl, -⟩
      rw [sched_of_exec_trigger hb hflags hu]
      rfl
    · intro hp
      refine ⟨t, ht, ?_⟩
      rw [sched_of_exec_trigger hb hflags ht]
      exact ⟨hp, rfl⟩
  simp only [hcaptures]
  exact ⟨hadvance, existsUnique_turn_of_advances hadvance⟩

/-- The railcom cursor and its count over one accepted `CUTOUT` trigger that is not the last of the turn (R233). -/
def Dwells (cursor : Nat → PortIdx) (count : Nat → Nat) (k : Nat) : Prop :=
  cursor (k + 1) = cursor k ∧ count (k + 1) = count k + 1

/-- A turn that begins with count 0 dwells on its port while the count is below `m` (R233). -/
theorem dwell_below {cursor : Nat → PortIdx} {count : Nat → Nat} {m : Nat} (h0 : count 0 = 0)
    (hstay : ∀ k, count k + 1 ≠ m → Dwells cursor count k) {n : Nat} (hn : n < m) :
    cursor n = cursor 0 ∧ count n = n := by
  induction n with
  | zero => exact ⟨rfl, h0⟩
  | succ n ih =>
    obtain ⟨hcursor, hcount⟩ := ih (by omega)
    obtain ⟨hcursor', hcount'⟩ := hstay n (by omega)
    exact ⟨hcursor'.trans hcursor, by rw [hcount', hcount]⟩

/-- Settles O33: the cursor dwells until the trigger that makes the count MAX_CONSEC, which advances it; an ignored
trigger is outside every turn. -/
theorem railcomCursorDwellsThenAdvances : Obligations.RailcomCursorDwellsThenAdvances := by
  constructor
  · intro n seq c hpos hseq h0
    have hstay (k : Nat) (hmore : (seq k).sched.rcCount + 1 ≠ c.maxConsec) :
        Dwells (fun k => (seq k).sched.rcCursor) (fun k => (seq k).sched.rcCount) k := by
      obtain ⟨rfl, hb, hflags, t, ht, hcursor, hcount⟩ := hseq k
      have hsched := sched_of_exec_trigger hb hflags ht
      rw [startCapture_cutout_of_not_last hmore] at hsched
      rw [hsched] at hcursor hcount
      exact ⟨hcursor, hcount⟩
    refine ⟨dwell_below h0 hstay, ?_⟩
    rintro rfl
    obtain ⟨k, hk⟩ := Nat.exists_eq_add_of_le' hpos
    obtain ⟨hcursor0, hcount0⟩ := dwell_below h0 hstay (show k < c.maxConsec by omega)
    obtain ⟨hc, hb, hflags, t, ht, hcursor, hcount⟩ := hseq k
    have hlast : (seq k).sched.rcCount + 1 = (seq k).config.maxConsec := by rw [hcount0, hc, hk]
    have hsched := sched_of_exec_trigger hb hflags ht
    rw [startCapture_cutout_of_last hlast] at hsched
    rw [hsched] at hcursor hcount
    rw [hk]
    exact ⟨hcursor.trans (congrArg (· + 1) hcursor0), hcount⟩
  · intro s t kind hflags ht
    have hbusy : captureIdle s.sched = false :=
      eq_false_of_ne_true fun hidle => hflags ((captureIdle_iff_flags s).mp hidle)
    rw [exec_trigger_of_ignored kind (.inr hbusy)] at ht
    cases ht
    rfl

end Sys2Proof.Machine
end

section
/-! PROOF. The phases of `TICK` and the order of its records (45_scheduler.md R237 to R239). Only `OCCDEB`, `ADDRREPORT`
and `KEEPALIVE` emit, in this order, and each sweep lists the records of the ports that pass its test, in port order. -/

namespace Sys2Proof.Machine
open Sys2Proof.Claims

/-- `TICK` before `BOOT`: the status IGNORED only (R237). -/
theorem exec_tick_of_not_booted {s : State} (hb : s.booted = false) : exec .tick s = .next (s.finish .ignored .none) :=
  congrArg Host.Outcome.next (if_pos hb)

/-- `TICK` after `BOOT`: the six phases, then DONE (R237). -/
theorem exec_tick_of_booted {s : State} (hb : s.booted = true) :
    exec .tick s = .next ((tickPhases s).finish .done .none) :=
  congrArg Host.Outcome.next (if_neg (by rw [hb]; decide))

/-- The analysis of a capture leaves the scheduler and the records alone (R238). -/
theorem analyseCapture_sched_out (s : State) : (analyseCapture s).sched = s.sched ∧ (analyseCapture s).out = s.out := by
  unfold analyseCapture
  split
  · rcases pair_cases s.sched.capPort
      (extractBuffer s s.ports[s.sched.capPort].voltageOffset.toNat s.thr.thresholdVoltage.toNat) s with
      ⟨ch, h⟩ | ⟨ch, addr, -, -, h⟩
    · rw [h]
      exact ⟨rfl, rfl⟩
    · rw [h]
      exact ⟨rfl, rfl⟩
  · exact ⟨rfl, rfl⟩

/-- Phase T1 is what the rule says of a finished capture, with the baseline and the threshold of the consuming state
(R238). -/
theorem tickConsumes_consumeCapture (s : State) : TickConsumes s (consumeCapture s) := by
  refine ⟨fun hidle => if_neg (by rw [hidle]; decide), fun hready => ⟨analyseCapture s, fun hp => ?_, fun hp => ?_, ?_⟩⟩
  · refine ⟨_, extractRule_extractBuffer s _ _, ?_⟩
    rw [analyseCapture, hp]
    rfl
  · rw [analyseCapture, hp]
    rfl
  · rw [consumeCapture, if_pos hready, (analyseCapture_sched_out s).1]

/-- Phase T1 emits nothing (R238). -/
theorem consumeCapture_out (s : State) : (consumeCapture s).out = s.out := by
  unfold consumeCapture
  split
  · exact (analyseCapture_sched_out s).2
  · rfl

/-- `PROGEXP` emits nothing (46_responder.md R291). -/
theorem expireProg_out (s : State) : (expireProg s).out = s.out := by
  rcases expireProg_cases s with ⟨-, -, h⟩ | ⟨-, h⟩ <;> rw [h]

/-- `KEEPALIVE` emits nothing or one ping (46_responder.md R296). -/
theorem keepAlive_out (s : State) :
    ∃ ping, (keepAlive s).out = s.out ++ ping ∧ (ping = [] ∨ ping = [.tx (pingRecord s)]) := by
  rcases keepAlive_cases s with ⟨-, h⟩ | ⟨-, h⟩ <;> rw [h]
  · exact ⟨_, rfl, .inr rfl⟩
  · exact ⟨[], (List.append_nil _).symm, .inl rfl⟩

/-- The records of the phases T1 to T6: the announcements, the notifications, and at most one ping (R239). -/
theorem tickPhases_out (s : State) :
    ∃ t ping, (tickPhases s).out = s.out ++ portList.flatMap (announceRecords (slotexp (consumeCapture s))) ++
        portList.flatMap (addrReportRecords (occdeb (slotexp (consumeCapture s)))) ++ ping ∧
      (ping = [] ∨ ping = [.tx (pingRecord t)]) := by
  obtain ⟨ping, hout, hping⟩ := keepAlive_out (expireProg (addrreport (occdeb (slotexp (consumeCapture s)))))
  refine ⟨_, ping, ?_, hping⟩
  rw [tickPhases, hout, expireProg_out, addrreport_out, occdeb_out, slotexp_out, consumeCapture_out]

/-- The ports that pass a test ascend (R239). -/
theorem pairwise_lt_filter_portList (due : PortIdx → Bool) : (portList.filter due).Pairwise (· < ·) :=
  List.Pairwise.filter due (by decide)

/-- At most 8 ports pass a test. -/
theorem length_filter_portList_le (due : PortIdx → Bool) : (portList.filter due).length ≤ 8 :=
  List.length_filter_le due portList

/-- A list and its image are related element by element when each element is related to its own image. -/
theorem forall₂_map_self {α β : Type} {R : α → β → Prop} {f : α → β} (l : List α) (h : ∀ a, R a (f a)) :
    List.Forall₂ R l (l.map f) :=
  List.forall₂_map_right_iff.mpr (List.forall₂_same.mpr fun a _ => h a)

/-- The records of `OCCDEB`: a `TX_PORT6` record a port, by ascending port, at most 8 (R214, R239). -/
theorem announceRecords_ascending (s : State) :
    (∃ ps : List PortIdx, ps.Pairwise (· < ·) ∧ List.Forall₂ IsPort6 ps (portList.flatMap (announceRecords s))) ∧
    (portList.flatMap (announceRecords s)).length ≤ 8 := by
  rw [flatMap_announceRecords]
  refine ⟨⟨_, pairwise_lt_filter_portList _, forall₂_map_self _ fun p => ⟨_, _, _, rfl⟩⟩, ?_⟩
  rw [List.length_map]
  exact length_filter_portList_le _

/-- The pair of records that notifies a port: slots 0 and 1, then slots 2 and 3 (R195). -/
def accDataPair (s : State) (p : PortIdx) : Output × Output :=
  (.tx (accDataRecord s p accTypeA 0 1), .tx (accDataRecord s p accTypeB 2 3))

/-- The records of `ADDRREPORT` over any list of ports: the pairs of the ports with a pending slot (R195). -/
theorem flatMap_addrReportRecords (s : State) (l : List PortIdx) :
    l.flatMap (addrReportRecords s) =
      ((l.filter fun p => slotsPending s.slots[p]).map (accDataPair s)).flatMap fun pr => [pr.1, pr.2] := by
  induction l with
  | nil => rfl
  | cons p rest ih =>
    rw [List.flatMap_cons, ih, addrReportRecords, List.filter_cons]
    split <;> rfl

/-- Pairs written out one after another are twice as many records. -/
theorem length_flatMap_pair {α : Type} (l : List (α × α)) :
    (l.flatMap fun pr => [pr.1, pr.2]).length = 2 * l.length := by
  simp [List.length_flatMap, Nat.mul_comm]

/-- The records of `ADDRREPORT`: a pair a port, type 0x11 before 0x12, by ascending port, at most 16 (R195, R239). -/
theorem addrReportRecords_ascending (s : State) :
    (∃ (qs : List PortIdx) (pairs : List (Output × Output)), qs.Pairwise (· < ·) ∧
      List.Forall₂ (fun q pr => IsAccData q 0x11 pr.1 ∧ IsAccData q 0x12 pr.2) qs pairs ∧
      portList.flatMap (addrReportRecords s) = pairs.flatMap fun pr => [pr.1, pr.2]) ∧
    (portList.flatMap (addrReportRecords s)).length ≤ 16 := by
  rw [flatMap_addrReportRecords]
  refine ⟨⟨_, _, pairwise_lt_filter_portList _, forall₂_map_self _ fun p => ⟨⟨_, _, _, _, rfl⟩, ⟨_, _, _, _, rfl⟩⟩, rfl⟩, ?_⟩
  rw [length_flatMap_pair, List.length_map]
  have := length_filter_portList_le fun p => slotsPending s.slots[p]
  omega

/-- Settles O29: each phase of `TICK` is what its micro-operation answers. -/
theorem tickRunsThePhasesInOrder : Obligations.TickRunsThePhasesInOrder := by
  intro s
  exact ⟨exec_tick_of_not_booted, fun hb => ⟨_, _, _, _, _, _, tickConsumes_consumeCapture s, rfl, rfl, rfl, rfl, rfl,
    exec_tick_of_booted hb⟩⟩

/-- Settles O30: the records of the three phases that emit, one phase after another. -/
theorem tickOutputOrder : Obligations.TickOutputOrder := by
  intro s hb
  obtain ⟨t, ping, hout, hping⟩ := tickPhases_out s
  obtain ⟨hocc, hoccLen⟩ := announceRecords_ascending (slotexp (consumeCapture s))
  obtain ⟨hacc, haccLen⟩ := addrReportRecords_ascending (occdeb (slotexp (consumeCapture s)))
  have hpingLen : ping.length ≤ 1 := by rcases hping with rfl | rfl <;> simp
  refine ⟨_, _, _, ping, exec_tick_of_booted hb, ?_, hocc, hacc, hping.imp_right fun h => ⟨_, _, _, _, h⟩, ?_⟩
  · rw [finish_out, hout]
    rfl
  · rw [List.length_append, List.length_append]
    omega

end Sys2Proof.Machine
end

section
/-! PROOF. The prologue of the message commands (46_responder.md R261, R266). Every message command is its own handler
under the one prologue, so what a message does before `BOOT`, from its own id and from another node is said once here. -/

namespace Sys2Proof.Machine
open Sys2Proof.Claims

/-- Records emitted in two turns are the records of one (R100). -/
theorem emit_emit (s : State) (rs rs' : List Output) : (s.emit rs).emit rs' = s.emit (rs ++ rs') :=
  congrArg (fun out => { s with out := out }) (List.append_assoc s.out rs rs')

/-- The model's collision is the one of the rule (R266). -/
theorem collide_eq_afterCollision (s : State) : collide s = afterCollision s :=
  congrArg (fun t : State => { t with resp := { lastPingTime := s.inp.now } })
    (emit_emit { s with cfg := { s.cfg with networkId := drawNetworkId s.config s.inp.rand } } _ _)

/-- A message before `BOOT` is IGNORED (R261). -/
theorem withPrologue_of_not_booted (src : Half) (handler : State → State) {s : State} (hb : s.booted = false) :
    withPrologue src handler s = s.finish .ignored .none := if_pos hb

/-- A message from the own network id is a collision, whatever its handler (R261). -/
theorem withPrologue_of_own_id (handler : State → State) {s : State} (hb : s.booted = true) :
    withPrologue s.cfg.networkId handler s = (afterCollision s).finish .collision .none := by
  rw [withPrologue, if_neg (ne_false_of_eq_true hb), if_pos rfl, collide_eq_afterCollision]

/-- A message from another node on a booted module is left to its handler (R261). -/
theorem withPrologue_of_foreign {src : Half} (handler : State → State) {s : State} (h : Foreign s src) :
    withPrologue src handler s = handler s := by
  obtain ⟨hb, hsrc⟩ := h
  rw [withPrologue, if_neg (ne_false_of_eq_true hb), if_neg hsrc]

/-! On a booted module a message from another node is its own handler. -/

section
variable {src : Half} {s : State} (hforeign : Foreign s src)
include hforeign

theorem exec_rxInfoGet_of_foreign (tag : Half) :
    exec (.rxInfoGet src tag) s = .next (handleInfoGet tag s) :=
  congrArg Host.Outcome.next (withPrologue_of_foreign _ hforeign)

theorem exec_rxCfgGet_of_foreign (tag : BitVec 32) :
    exec (.rxCfgGet src tag) s = .next (handleCfgGet tag s) :=
  congrArg Host.Outcome.next (withPrologue_of_foreign _ hforeign)

theorem exec_rxCfgSet_of_foreign (tag : BitVec 32) (value : Half) :
    exec (.rxCfgSet src tag value) s = .next (handleCfgSet tag value s) :=
  congrArg Host.Outcome.next (withPrologue_of_foreign _ hforeign)

theorem exec_rxAccdataGet_of_foreign (id : Half) (port type : Byte) :
    exec (.rxAccdataGet src id port type) s = .next (handleAccdataGet id port type s) :=
  congrArg Host.Outcome.next (withPrologue_of_foreign _ hforeign)

theorem exec_rxPort6Get_of_foreign (id : Half) (port type : Byte) :
    exec (.rxPort6Get src id port type) s = .next (handlePort6Get id port type s) :=
  congrArg Host.Outcome.next (withPrologue_of_foreign _ hforeign)

theorem exec_rxSetaddr_of_foreign (newAddress : Half) :
    exec (.rxSetaddr src newAddress) s = .next (handleSetaddr newAddress s) :=
  congrArg Host.Outcome.next (withPrologue_of_foreign _ hforeign)

end

/-- The operations that have a sender are the nine that run a handler under the prologue (R99, R261). -/
theorem exec_of_senderOf {i : Instr} {src : Half} (h : senderOf i = some src) :
    ∃ handler : State → State, ∀ s, exec i s = .next (withPrologue src handler s) := by
  cases i <;> cases h <;> exact ⟨_, fun _ => rfl⟩

/-- Settles O42: the prologue decides before any of the nine handlers is looked at. -/
theorem messagePrologue : Obligations.MessagePrologue := by
  intro i src s hsender
  obtain ⟨handler, hexec⟩ := exec_of_senderOf hsender
  rw [hexec]
  constructor
  · intro hb
    rw [withPrologue_of_not_booted src handler hb]
    rfl
  · rintro hb rfl
    rw [withPrologue_of_own_id handler hb]
    rfl

/-- Settles O43: the drawn id lies in the range, which the constraints on the parameters keep off the sentinels. -/
theorem collisionRule : Obligations.CollisionRule := by
  intro s hwf
  exact ⟨congrArg Host.Outcome.next (collide_eq_afterCollision s), drawNetworkId_range s.config s.inp.rand hwf⟩

/-- Settles O52: the handler of the other messages is the status UNHANDLED. -/
theorem otherMessagesAreUnhandled : Obligations.OtherMessagesAreUnhandled :=
  fun _ _ hforeign => congrArg Host.Outcome.next (withPrologue_of_foreign _ hforeign)

end Sys2Proof.Machine
end

section
/-! PROOF. The module-info and configuration messages (46_responder.md R274 to R280). Each answers by a table on its tag:
a tag of the table gives its row, any other tag has none. -/

namespace Sys2Proof.Machine
open Sys2Proof.Claims

/-- Each of the five tags gives its own value: the tags are distinct, so no earlier row of the table takes it (R274). -/
theorem infoValue_eq_some {c : Config} {cfg : ModuleConfig} {tag : Half} {v : BitVec 32} (hnodup : c.infoTags.Nodup)
    (h : (tag = c.infoTagHw ∧ v = c.hwVersion) ∨ (tag = c.infoTagFw ∧ v = c.fwVersion) ∨
      (tag = c.infoTagDate ∧ v = c.buildDate) ∨ (tag = c.infoTagId ∧ v = cfg.moduleAddress.setWidth 32) ∨
      (tag = c.infoTagType ∧ v = c.moduleType.setWidth 32)) : infoValue c cfg tag = some v := by
  simp only [Config.infoTags, List.nodup_cons, List.mem_cons, List.not_mem_nil, or_false, not_or] at hnodup
  obtain ⟨⟨hwFw, hwDate, hwId, hwType⟩, ⟨fwDate, fwId, fwType⟩, ⟨dateId, dateType⟩, idType, -⟩ := hnodup
  unfold infoValue
  rcases h with ⟨rfl, rfl⟩ | ⟨rfl, rfl⟩ | ⟨rfl, rfl⟩ | ⟨rfl, rfl⟩ | ⟨rfl, rfl⟩
  · rw [if_pos rfl]
  · rw [if_neg (Ne.symm hwFw), if_pos rfl]
  · rw [if_neg (Ne.symm hwDate), if_neg (Ne.symm fwDate), if_pos rfl]
  · rw [if_neg (Ne.symm hwId), if_neg (Ne.symm fwId), if_neg (Ne.symm dateId), if_pos rfl]
  · rw [if_neg (Ne.symm hwType), if_neg (Ne.symm fwType), if_neg (Ne.symm dateType), if_neg (Ne.symm idType),
      if_pos rfl]

/-- A tag that is none of the five has no value (R274). -/
theorem infoValue_eq_none {c : Config} {tag : Half} (cfg : ModuleConfig) (h : tag ∉ c.infoTags) :
    infoValue c cfg tag = none := by
  simp only [Config.infoTags, List.mem_cons, List.not_mem_nil, or_false, not_or] at h
  obtain ⟨hHw, hFw, hDate, hId, hType⟩ := h
  rw [infoValue, if_neg hHw, if_neg hFw, if_neg hDate, if_neg hId, if_neg hType]

/-- Settles O46: the table of the five tags answers, or has no row. -/
theorem infoQueryAnswers : Obligations.InfoQueryAnswers := by
  intro src tag s hforeign hwf
  obtain ⟨-, -, -, -, -, -, -, -, -, -, -, -, -, -, hnodup⟩ := hwf
  rw [exec_rxInfoGet_of_foreign hforeign, handleInfoGet]
  constructor
  · intro v hrow
    rw [infoValue_eq_some hnodup hrow]
    exact congrArg Host.Outcome.next (emit_emit s _ _)
  · intro hnone
    rw [infoValue_eq_none s.cfg hnone]
    rfl

/-- The upper half of the tags that select a field (20_memory.md R66). -/
def upperOf : CfgField → Half
  | .sendChannel2Data => 0x0022
  | .trackSetCurrentThreshold => 0x0040
  | .trackFreeToSetDelay => 0x0050
  | .trackSetToFreeDelay => 0x0051

/-- A tag with the upper half of a field selects it; its lower half does not matter (R276). -/
theorem selectField_eq_some {tag : BitVec 32} {f : CfgField} (h : tag.extractLsb' 16 16 = upperOf f) :
    selectField tag = some f := by
  rw [selectField, h]
  cases f <;> rfl

/-- A tag with any other upper half selects none (R278). -/
theorem selectField_eq_none {tag : BitVec 32}
    (h : tag.extractLsb' 16 16 ∉ ([0x0022, 0x0040, 0x0050, 0x0051] : List Half)) : selectField tag = none := by
  rcases selectField_cases tag with ⟨hu, -⟩ | ⟨hu, -⟩ | ⟨hu, -⟩ | ⟨hu, -⟩ | ⟨-, hnone⟩
  case inr.inr.inr.inr => exact hnone
  all_goals simp [hu] at h

section
variable {src : Half} {s : State} (hforeign : Foreign s src)
include hforeign

/-- `RX_CFG_GET` of a field: one answer with its value, nothing else (R277). -/
theorem exec_rxCfgGet_of_field {tag : BitVec 32} {f : CfgField} (h : tag.extractLsb' 16 16 = upperOf f) :
    exec (.rxCfgGet src tag) s = .next { s with
      out := s.out ++ [.tx (.cfgAck s.cfg.networkId tag (readField s.cfg f)), status .handled] } := by
  rw [exec_rxCfgGet_of_foreign hforeign, handleCfgGet, selectField_eq_some h]
  exact congrArg Host.Outcome.next (emit_emit s _ _)

/-- `RX_CFG_GET` of an unknown tag: the status UNHANDLED only (R278). -/
theorem exec_rxCfgGet_of_unknown {tag : BitVec 32}
    (h : tag.extractLsb' 16 16 ∉ ([0x0022, 0x0040, 0x0050, 0x0051] : List Half)) :
    exec (.rxCfgGet src tag) s = .next (s.finish .unhandled .none) := by
  rw [exec_rxCfgGet_of_foreign hforeign, handleCfgGet, selectField_eq_none h]

/-- `RX_CFG_SET` of a field: the field written and its thresholds, the record persisted, the value echoed (R280). -/
theorem exec_rxCfgSet_of_field {tag : BitVec 32} {f : CfgField} (value : Half)
    (h : tag.extractLsb' 16 16 = upperOf f) :
    exec (.rxCfgSet src tag value) s = .next { setField s f value with
      out := s.out ++ [.persist (encodeRecord (writeField s.cfg f value)), .tx (.cfgAck s.cfg.networkId tag value),
        status .handled] } := by
  rw [exec_rxCfgSet_of_foreign hforeign, handleCfgSet, selectField_eq_some h]
  refine congrArg Host.Outcome.next ?_
  show (((setField s f value).emit _).emit _).emit _ = _
  rw [emit_emit, emit_emit]
  rfl

/-- `RX_CFG_SET` of an unknown tag: the status UNHANDLED only (R278). -/
theorem exec_rxCfgSet_of_unknown {tag : BitVec 32} (value : Half)
    (h : tag.extractLsb' 16 16 ∉ ([0x0022, 0x0040, 0x0050, 0x0051] : List Half)) :
    exec (.rxCfgSet src tag value) s = .next (s.finish .unhandled .none) := by
  rw [exec_rxCfgSet_of_foreign hforeign, handleCfgSet, selectField_eq_none h]

end

/-- Settles O47: one field per known upper half of the tag. -/
theorem configGetAnswers : Obligations.ConfigGetAnswers := by
  intro src tag s hforeign
  constructor
  · rintro v (⟨htag, rfl⟩ | ⟨htag, rfl⟩ | ⟨htag, rfl⟩ | ⟨htag, rfl⟩)
    · exact exec_rxCfgGet_of_field (f := .sendChannel2Data) hforeign htag
    · exact exec_rxCfgGet_of_field (f := .trackSetCurrentThreshold) hforeign htag
    · exact exec_rxCfgGet_of_field (f := .trackFreeToSetDelay) hforeign htag
    · exact exec_rxCfgGet_of_field (f := .trackSetToFreeDelay) hforeign htag
  · exact exec_rxCfgGet_of_unknown hforeign

/-- Settles O48: one field per known upper half of the tag; only the current rating moves the thresholds. -/
theorem configSetWritesPersistsAcknowledges : Obligations.ConfigSetWritesPersistsAcknowledges := by
  intro src tag value s hforeign
  refine ⟨?_, fun htag => ?_, exec_rxCfgSet_of_unknown hforeign value⟩
  · rintro cfg' (⟨htag, rfl⟩ | ⟨htag, rfl⟩ | ⟨htag, rfl⟩)
    · have hflag : decide (value ≠ 0) = (value != 0) := decide_not
      rw [hflag]
      exact exec_rxCfgSet_of_field (f := .sendChannel2Data) hforeign value htag
    · exact exec_rxCfgSet_of_field (f := .trackFreeToSetDelay) hforeign value htag
    · exact exec_rxCfgSet_of_field (f := .trackSetToFreeDelay) hforeign value htag
  · exact exec_rxCfgSet_of_field (f := .trackSetCurrentThreshold) hforeign value htag

end Sys2Proof.Machine
end

section
/-! PROOF. The two queries about a port (46_responder.md R282 to R285): what the query's id, port and type select, then
the one record that answers it. -/

namespace Sys2Proof.Machine
open Sys2Proof.Claims

/-- The model's match of an id is the rule's (R282). -/
theorem idMatch_iff_idMatches (s : State) (id : Half) : idMatch s.config s.cfg id = true ↔ IdMatches s id := by
  rw [idMatch, Bool.or_eq_true, beq_iff_eq, beq_iff_eq, IdMatches]

/-- A query that does not match names no port of this module (R282). -/
theorem idMatch_eq_false {s : State} {id : Half} (h : ¬ IdMatches s id) : idMatch s.config s.cfg id = false := by
  rwa [← idMatch_iff_idMatches, Bool.not_eq_true] at h

/-- A port number below 8 names its port (R283, R285). -/
theorem portOf_eq_some {port : Byte} {p : PortIdx} (h : port.toNat = p.val) : portOf port = some p := by
  have hlt : port.toNat < 8 := h ▸ p.isLt
  rw [portOf, dif_pos hlt]
  exact congrArg some (Fin.ext h)

/-- A port number of 8 or above names none (R283, R285). -/
theorem portOf_eq_none {port : Byte} (h : 8 ≤ port.toNat) : portOf port = none := dif_neg (Nat.not_lt.mpr h)

/-- The answer carries the port number as the query had it (R107, R108). -/
theorem portByte_eq {port : Byte} {p : PortIdx} (h : port.toNat = p.val) : portByte p = port := by
  rw [portByte, ← h, BitVec.ofNat_toNat, BitVec.setWidth_eq]

/-- The two types each ask for their half of the slots (R283). -/
theorem accSlots_eq_some {type : Byte} {lo hi : SlotIdx}
    (h : (type = 0x11 ∧ lo = 0 ∧ hi = 1) ∨ (type = 0x12 ∧ lo = 2 ∧ hi = 3)) : accSlots type = some (lo, hi) := by
  rcases h with ⟨rfl, rfl, rfl⟩ | ⟨rfl, rfl, rfl⟩ <;> rfl

/-- Any other type asks for none (R283). -/
theorem accSlots_eq_none {type : Byte} (hA : type ≠ 0x11) (hB : type ≠ 0x12) : accSlots type = none :=
  (if_neg hA).trans (if_neg hB)

/-- Settles O49: id, port and type each can end the query; all three together select the two slots. -/
theorem accessoryDataQuery : Obligations.AccessoryDataQuery := by
  intro src id port type s hforeign
  rw [exec_rxAccdataGet_of_foreign hforeign, handleAccdataGet]
  constructor
  · intro p lo hi hid hport htype
    rw [if_pos ((idMatch_iff_idMatches s id).mpr hid), portOf_eq_some hport, accSlots_eq_some htype,
      ← packSlot_eq_slotWord, ← packSlot_eq_slotWord, ← portByte_eq hport]
    exact congrArg Host.Outcome.next (emit_emit s _ _)
  · rintro (hid | hport | ⟨hA, hB⟩)
    · rw [idMatch_eq_false hid]
      rfl
    · rw [portOf_eq_none hport]
      split <;> rfl
    · rw [accSlots_eq_none hA hB]
      cases portOf port <;> split <;> rfl

/-- The word of the reported state: Occupied iff the raw state agrees with the reported flag (R23, R111). -/
theorem occupancyWord_reportedState (pr : PortRegs) :
    occupancyWord (reportedState pr) = if pr.state = pr.reported then 0x0001 else 0x0000 := by
  unfold reportedState
  cases pr.state <;> cases pr.reported <;> rfl

/-- Settles O50: id, port and type each can end the query; all three together select the port. -/
theorem occupancyQuery : Obligations.OccupancyQuery := by
  intro src id port type s hforeign
  rw [exec_rxPort6Get_of_foreign hforeign, handlePort6Get]
  constructor
  · rintro p hid hport rfl
    rw [(idMatch_iff_idMatches s id).mpr hid, portOf_eq_some hport, ← occupancyWord_reportedState,
      ← portByte_eq hport]
    exact congrArg Host.Outcome.next (emit_emit s _ _)
  · rintro (hid | hport | htype)
    · rw [idMatch_eq_false hid]
      rfl
    · rw [portOf_eq_none hport]
      split <;> rfl
    · have hother : (type == port6Type) = false := beq_false_of_ne htype
      rw [hother, Bool.and_false]
      rfl

end Sys2Proof.Machine
end

section
/-! PROOF. The address-programming window (46_responder.md R288 to R291): opened by `PROGOPEN`, used and closed by
`RX_SETADDR`, closed by `PROGEXP` when its time has run out. -/

namespace Sys2Proof.Machine
open Sys2Proof.Claims

/-- Settles O51: the window decides. -/
theorem setAddressNeedsTheWindow : Obligations.SetAddressNeedsTheWindow := by
  intro src a s hforeign
  rw [exec_rxSetaddr_of_foreign hforeign, handleSetaddr]
  constructor
  · intro hopen
    rw [if_pos hopen]
    exact congrArg Host.Outcome.next (emit_emit _ _ _)
  · intro hclosed
    rw [if_neg (ne_true_of_eq_false hclosed)]
    rfl

/-- Settles O53: `BOOT` decides; a window that is open already is not asked for. -/
theorem progopenOpensTheWindow : Obligations.ProgopenOpensTheWindow :=
  fun _ => ⟨fun hb => congrArg Host.Outcome.next (if_neg (ne_false_of_eq_true hb)),
    fun hb => congrArg Host.Outcome.next (if_pos hb)⟩

/-- Settles O54: of the two cases of `PROGEXP` the hypotheses leave one. -/
theorem progexpClosesTheWindow : Obligations.ProgexpClosesTheWindow := by
  intro s
  have helapsed : elapsed s.inp.now s.prog.openedAt = since s.inp.now s.prog.openedAt := elapsed_eq _ _
  show (_ → _ → Host.Outcome.next (expireProg s) = _) ∧ (_ → Host.Outcome.next (expireProg s) = _)
  have hexclusive (hopen : s.prog.active = true)
      (hdue : s.config.progWindowMs.toNat ≤ since s.inp.now s.prog.openedAt) :
      ¬ (s.prog.active = false ∨ since s.inp.now s.prog.openedAt < s.config.progWindowMs.toNat) := by
    rintro (hclosed | hearly)
    · exact absurd hopen (ne_true_of_eq_false hclosed)
    · exact absurd hdue (Nat.not_le.mpr hearly)
  rcases expireProg_cases s with ⟨hopen, hdue, heq⟩ | ⟨hkeep, heq⟩ <;> rw [heq]
  · rw [helapsed] at hdue
    exact ⟨fun _ _ => rfl, fun hkeep => absurd hkeep (hexclusive hopen hdue)⟩
  · rw [helapsed] at hkeep
    exact ⟨fun hopen hdue => absurd hkeep (hexclusive hopen hdue), fun _ => rfl⟩

end Sys2Proof.Machine
end

section
/-! PROOF. Who can change what in the configuration (60_exceptions.md R331). An operation of a booted module makes at
most one write to `cfg`, and each write has its operation; all else an operation does keeps `cfg` and the baselines of the
ports. -/

namespace Sys2Proof.Machine

/-- The configuration of `s` still stands in `t`: `cfg`, and the baseline of every port (R331). -/
structure KeepsConfiguration (s t : State) : Prop where
  cfg_eq : t.cfg = s.cfg
  offset_eq : ∀ p : PortIdx, t.ports[p].voltageOffset = s.ports[p].voltageOffset

/-- The configurations that the operation `i` of a booted module can leave in `cfg` (R331): the one that stood there, or
that of the one write it may make. -/
inductive ConfigWrite (i : Instr) (s : State) : ModuleConfig → Prop
  | unchanged : ConfigWrite i s s.cfg
  | networkId (nid : Half) (h : i = .collision ∨ senderOf i = some s.cfg.networkId) :
    ConfigWrite i s { s.cfg with networkId := nid }
  | moduleAddress (src addr : Half) (hi : i = .rxSetaddr src addr) (hopen : s.prog.active = true) :
    ConfigWrite i s { s.cfg with moduleAddress := addr }
  | field (src : Half) (tag : BitVec 32) (value : Half) (f : CfgField) (hi : i = .rxCfgSet src tag value) :
    ConfigWrite i s (writeField s.cfg f value)

/-- `t` is left by the operation `i` in `s` with at most its one write to the configuration. -/
def Configures (i : Instr) (s t : State) : Prop :=
  ∃ cfg, ConfigWrite i s cfg ∧ KeepsConfiguration { s with cfg := cfg } t

/-! ### What keeps the configuration -/

namespace KeepsConfiguration

theorem trans {s t u : State} (hst : KeepsConfiguration s t) (htu : KeepsConfiguration t u) :
    KeepsConfiguration s u :=
  ⟨htu.cfg_eq.trans hst.cfg_eq, fun p => (htu.offset_eq p).trans (hst.offset_eq p)⟩

theorem of_ports_eq {s t : State} (hcfg : t.cfg = s.cfg) (hports : t.ports = s.ports) : KeepsConfiguration s t :=
  ⟨hcfg, fun p => by rw [hports]⟩

theorem refl (s : State) : KeepsConfiguration s s := of_ports_eq rfl rfl

theorem finish {s t : State} (h : KeepsConfiguration s t) (st : Status) (v : ResultValue) :
    KeepsConfiguration s (t.finish st v) :=
  h.trans (of_ports_eq rfl rfl)

theorem ite {c : Prop} [Decidable c] {s t u : State} (ht : KeepsConfiguration s t) (hu : KeepsConfiguration s u) :
    KeepsConfiguration s (if c then t else u) := by
  split
  · exact ht
  · exact hu

end KeepsConfiguration

open KeepsConfiguration (of_ports_eq)

/-- A command that only reports keeps the configuration. -/
theorem keepsConfiguration_finish (s : State) (st : Status) (v : ResultValue) : KeepsConfiguration s (s.finish st v) :=
  (KeepsConfiguration.refl s).finish st v

theorem keepsConfiguration_pair (p : PortIdx) (r : FrameRecord) (s : State) : KeepsConfiguration s (pair p r s) := by
  rcases pair_cases p r s with ⟨ch, h⟩ | ⟨ch, addr, -, -, h⟩ <;> rw [h]
  · exact of_ports_eq rfl rfl
  · exact of_ports_eq rfl rfl

/-- Accumulation writes the registers of one port, and of these not the baseline (44_occupancy.md R211). -/
theorem keepsConfiguration_occacc (p : PortIdx) (s : State) : KeepsConfiguration s (occacc p s) := by
  refine ⟨rfl, fun q => ?_⟩
  rw [occacc, setPort_get]
  split
  case isTrue hpq =>
    subst hpq
    exact (accumulate_keeps ..).1
  case isFalse => rfl

/-- An announcement writes `reported` only (44_occupancy.md R214). -/
theorem keepsConfiguration_occdeb (s : State) : KeepsConfiguration s (occdeb s) := by
  refine ⟨rfl, fun p => ?_⟩
  have hport : (occdeb s).ports[p] = announcePort s.cfg s.inp.now s.ports[p] := by simp
  rw [hport]
  rcases announcePort_cases s.cfg s.inp.now s.ports[p] with ⟨-, -, h⟩ | ⟨-, h⟩ <;> rw [h]

theorem keepsConfiguration_consumeCapture (s : State) : KeepsConfiguration s (consumeCapture s) := by
  rcases consumeCapture_cases s with ⟨-, h⟩ | ⟨-, -, h⟩ | ⟨-, -, h⟩ <;> rw [h]
  · exact .refl s
  · exact (keepsConfiguration_pair ..).trans (of_ports_eq rfl rfl)
  · exact (keepsConfiguration_occacc ..).trans (of_ports_eq rfl rfl)

theorem keepsConfiguration_expireProg (s : State) : KeepsConfiguration s (expireProg s) := by
  rcases expireProg_cases s with ⟨-, -, h⟩ | ⟨-, h⟩ <;> rw [h]
  · exact of_ports_eq rfl rfl
  · exact .refl s

theorem keepsConfiguration_keepAlive (s : State) : KeepsConfiguration s (keepAlive s) := by
  rcases keepAlive_cases s with ⟨-, h⟩ | ⟨-, h⟩ <;> rw [h]
  · exact of_ports_eq rfl rfl
  · exact .refl s

/-- Each of the six phases of `TICK` keeps the configuration (45_scheduler.md R237). -/
theorem keepsConfiguration_tickPhases (s : State) : KeepsConfiguration s (tickPhases s) := by
  have hswept : KeepsConfiguration s (slotexp (consumeCapture s)) :=
    (keepsConfiguration_consumeCapture s).trans (of_ports_eq rfl rfl)
  have hreported : KeepsConfiguration s (addrreport (occdeb (slotexp (consumeCapture s)))) :=
    (hswept.trans (keepsConfiguration_occdeb _)).trans (of_ports_eq rfl rfl)
  exact (hreported.trans (keepsConfiguration_expireProg _)).trans (keepsConfiguration_keepAlive _)

/-! ### The handlers of the messages: only those of a config set and an address set write the configuration -/

/-- The two ends of an observed ping write the session at most (46_responder.md R270). -/
theorem keepsConfiguration_handlePing (masterUid type : Half) (s : State) :
    KeepsConfiguration s (handlePing masterUid type s) :=
  .ite (of_ports_eq rfl rfl) (keepsConfiguration_finish s _ _)

theorem keepsConfiguration_handleInfoGet (tag : Half) (s : State) : KeepsConfiguration s (handleInfoGet tag s) := by
  unfold handleInfoGet
  split
  · exact of_ports_eq rfl rfl
  · exact keepsConfiguration_finish s _ _

theorem keepsConfiguration_handleCfgGet (tag : BitVec 32) (s : State) : KeepsConfiguration s (handleCfgGet tag s) := by
  unfold handleCfgGet
  split
  · exact of_ports_eq rfl rfl
  · exact keepsConfiguration_finish s _ _

theorem keepsConfiguration_handleAccdataGet (id : Half) (port type : Byte) (s : State) :
    KeepsConfiguration s (handleAccdataGet id port type s) := by
  refine .ite ?_ (keepsConfiguration_finish s _ _)
  split
  · exact of_ports_eq rfl rfl
  · exact keepsConfiguration_finish s _ _

theorem keepsConfiguration_handlePort6Get (id : Half) (port type : Byte) (s : State) :
    KeepsConfiguration s (handlePort6Get id port type s) := by
  refine .ite ?_ (keepsConfiguration_finish s _ _)
  split
  · exact of_ports_eq rfl rfl
  · exact keepsConfiguration_finish s _ _

theorem Configures.of_keeps {i : Instr} {s t : State} (h : KeepsConfiguration s t) : Configures i s t :=
  ⟨s.cfg, .unchanged, h⟩

/-- The collision rule writes the network id, and is run for `COLLISION` and for a message from the own id (R266). -/
theorem configures_collide {i : Instr} {s : State} (h : i = .collision ∨ senderOf i = some s.cfg.networkId) :
    Configures i s (collide s) :=
  ⟨_, .networkId _ h, of_ports_eq rfl rfl⟩

/-- The prologue adds the collision rule to what the handler of a message can write (R261). -/
theorem configures_withPrologue {i : Instr} {src : Half} {handler : State → State} {s : State}
    (hsender : senderOf i = some src) (hhandler : Configures i s (handler s)) :
    Configures i s (withPrologue src handler s) := by
  rcases withPrologue_cases src handler s with ⟨-, h⟩ | ⟨-, hown, h⟩ | ⟨-, -, h⟩ <;> rw [h]
  · exact .of_keeps (keepsConfiguration_finish s _ _)
  · obtain ⟨cfg, hwrite, hkeep⟩ := configures_collide (.inr (hown ▸ hsender))
    exact ⟨cfg, hwrite, hkeep.finish _ _⟩
  · exact hhandler

/-- A config set writes the field its tag selects, if any (R280). -/
theorem configures_handleCfgSet (src : Half) (tag : BitVec 32) (value : Half) (s : State) :
    Configures (.rxCfgSet src tag value) s (handleCfgSet tag value s) := by
  unfold handleCfgSet
  split
  next f _ => exact ⟨_, .field src tag value f rfl, of_ports_eq rfl rfl⟩
  next => exact .of_keeps (keepsConfiguration_finish s _ _)

/-- An address set writes the address while the programming window is open (R290). -/
theorem configures_handleSetaddr (src addr : Half) (s : State) :
    Configures (.rxSetaddr src addr) s (handleSetaddr addr s) := by
  unfold handleSetaddr
  split
  next hopen => exact ⟨_, .moduleAddress src addr rfl hopen, of_ports_eq rfl rfl⟩
  next => exact .of_keeps (keepsConfiguration_finish s _ _)

/-! ### Every operation -/

theorem exec_enc48_keepsConfiguration (sym : Symbol) (s : State) :
    ∃ t, exec (.enc48 sym) s = .next t ∧ KeepsConfiguration s t := by
  cases h : encRom s.config sym with
  | none => exact ⟨_, exec_enc48_of_encRom_none h, keepsConfiguration_finish s _ _⟩
  | some b => exact ⟨_, exec_enc48_of_encRom_some h, keepsConfiguration_finish s _ _⟩

/-- An operation of a booted module that is neither a message nor the collision keeps the configuration; `BOOT` does
because the module is booted already (70_reset_and_hazards.md R355(g)). -/
theorem exec_keepsConfiguration {i : Instr} {s : State} (hb : s.booted = true) (hsender : senderOf i = none)
    (hi : i ≠ .collision) : ∃ t, exec i s = .next t ∧ KeepsConfiguration s t := by
  cases i with
  | demod | extract => exact ⟨_, rfl, .ite (keepsConfiguration_finish s _ _) (keepsConfiguration_finish s _ _)⟩
  | enc48 sym => exact exec_enc48_keepsConfiguration sym s
  | trigger | capdone => exact ⟨_, rfl, .ite (of_ports_eq rfl rfl) (keepsConfiguration_finish s _ _)⟩
  | progopen => exact ⟨_, rfl, .ite (keepsConfiguration_finish s _ _) (of_ports_eq rfl rfl)⟩
  | tick => exact ⟨_, exec_tick_of_booted hb, (keepsConfiguration_tickPhases s).finish _ _⟩
  | boot => exact ⟨_, congrArg Host.Outcome.next (if_pos hb), keepsConfiguration_finish s _ _⟩
  | pair p r => exact ⟨_, rfl, keepsConfiguration_pair p r s⟩
  | slotupd | slotexp | addrreport => exact ⟨_, rfl, of_ports_eq rfl rfl⟩
  | occacc p => exact ⟨_, rfl, keepsConfiguration_occacc p s⟩
  | occdeb => exact ⟨_, rfl, keepsConfiguration_occdeb s⟩
  | progexp => exact ⟨_, rfl, keepsConfiguration_expireProg s⟩
  | keepalive => exact ⟨_, rfl, keepsConfiguration_keepAlive s⟩
  | collision => exact absurd rfl hi
  | rxPingreq | rxPing | rxInfoGet | rxCfgGet | rxCfgSet | rxAccdataGet | rxPort6Get | rxSetaddr | rxOther =>
    cases hsender
  | dec84 | reserved00 | reserved05 | reserved06 | reserved07 | reserved0D | reserved0E | reserved0F | reserved19
  | reserved1A | reserved1B | reserved1C | reserved1D | reserved1E | reserved1F =>
    exact ⟨_, rfl, keepsConfiguration_finish s _ _⟩

/-- A message makes at most its one write: that of the collision rule, or that of its handler. -/
theorem exec_configures_of_senderOf {i : Instr} {src : Half} (s : State) (hsender : senderOf i = some src) :
    ∃ t, exec i s = .next t ∧ Configures i s t := by
  cases i with
  | rxPingreq => exact ⟨_, rfl, configures_withPrologue rfl (.of_keeps (of_ports_eq rfl rfl))⟩
  | rxPing => exact ⟨_, rfl, configures_withPrologue rfl (.of_keeps (keepsConfiguration_handlePing ..))⟩
  | rxInfoGet => exact ⟨_, rfl, configures_withPrologue rfl (.of_keeps (keepsConfiguration_handleInfoGet ..))⟩
  | rxCfgGet => exact ⟨_, rfl, configures_withPrologue rfl (.of_keeps (keepsConfiguration_handleCfgGet ..))⟩
  | rxCfgSet => exact ⟨_, rfl, configures_withPrologue rfl (configures_handleCfgSet ..)⟩
  | rxAccdataGet => exact ⟨_, rfl, configures_withPrologue rfl (.of_keeps (keepsConfiguration_handleAccdataGet ..))⟩
  | rxPort6Get => exact ⟨_, rfl, configures_withPrologue rfl (.of_keeps (keepsConfiguration_handlePort6Get ..))⟩
  | rxSetaddr => exact ⟨_, rfl, configures_withPrologue rfl (configures_handleSetaddr ..)⟩
  | rxOther => exact ⟨_, rfl, configures_withPrologue rfl (.of_keeps (keepsConfiguration_finish s _ _))⟩
  | _ => cases hsender

/-- Everything an operation of a booted module can do to the configuration (R331). -/
theorem configures_of_exec {i : Instr} {s t : State} (hb : s.booted = true) (hexec : exec i s = .next t) :
    Configures i s t := by
  have hsome : ∃ u, exec i s = .next u ∧ Configures i s u := by
    by_cases hi : i = .collision
    · subst hi
      exact ⟨_, rfl, configures_collide (.inl rfl)⟩
    · cases hsender : senderOf i with
      | some src => exact exec_configures_of_senderOf s hsender
      | none => exact (exec_keepsConfiguration hb hsender hi).imp fun _ h => ⟨h.1, .of_keeps h.2⟩
  obtain ⟨u, hu, hconf⟩ := hsome
  cases hexec.symm.trans hu
  exact hconf

/-! ### What each write leaves alone -/

@[simp] theorem writeField_networkId (cfg : ModuleConfig) (f : CfgField) (v : Half) :
    (writeField cfg f v).networkId = cfg.networkId := by cases f <;> rfl

@[simp] theorem writeField_moduleAddress (cfg : ModuleConfig) (f : CfgField) (v : Half) :
    (writeField cfg f v).moduleAddress = cfg.moduleAddress := by cases f <;> rfl

@[simp] theorem writeField_voltageOffset (cfg : ModuleConfig) (f : CfgField) (v : Half) :
    (writeField cfg f v).voltageOffset = cfg.voltageOffset := by cases f <;> rfl

namespace ConfigWrite

variable {i : Instr} {s : State} {cfg : ModuleConfig}

theorem networkId_of_ne (h : ConfigWrite i s cfg) (hne : cfg.networkId ≠ s.cfg.networkId) :
    i = .collision ∨ senderOf i = some s.cfg.networkId := by
  cases h with
  | networkId _ hcollision => exact hcollision
  | field => exact absurd (writeField_networkId ..) hne
  | unchanged | moduleAddress => exact absurd rfl hne

theorem moduleAddress_of_ne (h : ConfigWrite i s cfg) (hne : cfg.moduleAddress ≠ s.cfg.moduleAddress) :
    ∃ src a, i = .rxSetaddr src a ∧ s.prog.active = true ∧ cfg.moduleAddress = a := by
  cases h with
  | moduleAddress src addr hi hopen => exact ⟨src, addr, hi, hopen, rfl⟩
  | field => exact absurd (writeField_moduleAddress ..) hne
  | unchanged | networkId => exact absurd rfl hne

theorem taggedField_of_ne (h : ConfigWrite i s cfg)
    (hne : cfg.sendChannel2Data ≠ s.cfg.sendChannel2Data ∨
      cfg.trackSetCurrentThreshold ≠ s.cfg.trackSetCurrentThreshold ∨
      cfg.trackFreeToSetDelay ≠ s.cfg.trackFreeToSetDelay ∨
      cfg.trackSetToFreeDelay ≠ s.cfg.trackSetToFreeDelay) : ∃ src tag v, i = .rxCfgSet src tag v := by
  cases h with
  | field src tag value _ hi => exact ⟨src, tag, value, hi⟩
  | unchanged | networkId | moduleAddress => simp at hne

theorem voltageOffset_eq (h : ConfigWrite i s cfg) : cfg.voltageOffset = s.cfg.voltageOffset := by
  cases h with
  | field => exact writeField_voltageOffset ..
  | unchanged | networkId | moduleAddress => rfl

end ConfigWrite

/-- Settles O18: an operation makes at most one write to the configuration, and each field has its own. -/
theorem whoWritesTheConfiguration : Obligations.WhoWritesTheConfiguration := by
  intro i s t hb hexec
  obtain ⟨cfg, hwrite, hcfg, hoffset⟩ := configures_of_exec hb hexec
  obtain rfl : t.cfg = cfg := hcfg
  exact ⟨hwrite.networkId_of_ne, hwrite.moduleAddress_of_ne, hwrite.taggedField_of_ne, hwrite.voltageOffset_eq, hoffset⟩

end Sys2Proof.Machine
end

section
/-! PROOF. `BOOT` (70_reset_and_hazards.md R352 to R355): what it loads and makes is what the rule writes out, and the stored
record and `booted` decide between its three ends. -/

namespace Sys2Proof.Machine
open Sys2Proof.Claims

/-- The stored record counts when it is present and its network id is no sentinel (R352). -/
theorem storedRecordValid_iff (i : Inputs) :
    storedRecordValid i = true ↔ i.storePresent = true ∧
      i.storeRec.extractLsb' 0 16 ≠ 0x0000 ∧ i.storeRec.extractLsb' 0 16 ≠ 0xFFFF := by
  rw [storedRecordValid, Bool.and_eq_true, Bool.and_eq_true, bne_iff_ne, bne_iff_ne, and_assoc]
  rfl

/-- An absent record, and each of the two sentinels, asks for the first boot (R352). -/
theorem storedRecordValid_eq_false {i : Inputs} (h : i.storePresent = false ∨
    i.storeRec.extractLsb' 0 16 = 0x0000 ∨ i.storeRec.extractLsb' 0 16 = 0xFFFF) : storedRecordValid i = false := by
  refine eq_false_of_ne_true fun hvalid => ?_
  obtain ⟨hpresent, hzero, hones⟩ := (storedRecordValid_iff i).mp hvalid
  rcases h with habsent | hid | hid
  · exact absurd hpresent (ne_true_of_eq_false habsent)
  · exact hzero hid
  · exact hones hid

/-- The fields of a stored record stand at their bit offsets (30_encoding.md R112). -/
theorem decodeRecord_eq_loadedConfig (r : RecordBits) : decodeRecord r = loadedConfig r := by
  have hflag : (recordByte r 4 != 0) = decide (r.extractLsb' 32 8 ≠ 0) :=
    Bool.eq_iff_iff.mpr (bne_iff_ne.trans decide_eq_true_iff.symm)
  have hoffset (p : PortIdx) : recordHalf r (11 + 2 * p.val) = r.extractLsb' (88 + 16 * p.val) 16 := by
    rw [recordHalf, show 8 * (11 + 2 * p.val) = 88 + 16 * p.val by omega]
  rw [decodeRecord, hflag, funext hoffset]
  rfl

/-- A first `BOOT` with a valid stored record: the registers of the record, then DONE alone (R352, R353). -/
theorem exec_boot_of_stored {s : State} (hb : s.booted = false) (hvalid : storedRecordValid s.inp = true) :
    exec .boot s = .next ((bootedWith (loadedConfig s.inp.storeRec) s).finish .done .none) := by
  have hup : bootUp s = bootedWith (loadedConfig s.inp.storeRec) s := by
    rw [bootUp, bootConfig, if_pos hvalid, if_pos hvalid, decodeRecord_eq_loadedConfig]
    rfl
  rw [← hup]
  exact congrArg Host.Outcome.next (if_neg (ne_true_of_eq_false hb))

/-- A first `BOOT` without one: the registers of the first-boot configuration, its record persisted, then DONE (R354). -/
theorem exec_boot_of_not_stored {s : State} (hb : s.booted = false) (hinvalid : storedRecordValid s.inp = false) :
    exec .boot s =
      .next ((emitPersist (bootedWith (defaultConfig s.config s.inp.rand) s)).finish .done .none) := by
  have hup : bootUp s = emitPersist (bootedWith (defaultConfig s.config s.inp.rand) s) := by
    have hne : ¬ storedRecordValid s.inp = true := ne_true_of_eq_false hinvalid
    rw [bootUp, bootConfig, if_neg hne, if_neg hne]
    rfl
  rw [← hup]
  exact congrArg Host.Outcome.next (if_neg (ne_true_of_eq_false hb))

/-- A second `BOOT` (R355(g)). -/
theorem exec_boot_of_booted {s : State} (hb : s.booted = true) : exec .boot s = .next (s.finish .ignored .none) :=
  congrArg Host.Outcome.next (if_pos hb)

/-- Settles O56: `booted`, then the stored record, decide. -/
theorem bootLoadsOrInitialises : Obligations.BootLoadsOrInitialises := by
  intro s
  refine ⟨fun hb hpresent hzero hones => ?_, fun hb hnone => ?_, exec_boot_of_booted⟩
  · exact exec_boot_of_stored hb ((storedRecordValid_iff s.inp).mpr ⟨hpresent, hzero, hones⟩)
  · rw [exec_boot_of_not_stored hb (storedRecordValid_eq_false hnone)]
    exact congrArg Host.Outcome.next (emit_emit _ _ _)

end Sys2Proof.Machine
end

section
/-! PROOF. `rst` and `booted` (70_reset_and_hazards.md R350): what a step does with each event of the host, and that no
operation but `BOOT` writes `booted`. -/

namespace Sys2Proof.Machine

/-! ### The step, one rule an event -/

section
variable {s : State} {rest : List HostEvent}

theorem step_of_idle (h : s.host = []) : step s = .next s := by rw [step, h]

theorem step_of_command_accepted {w : CmdWord} {inp : Inputs} (h : s.host = .command w inp :: rest)
    (hready : commandReady s = true) : step s = exec (decode w) (acceptCommand inp rest s) := by
  rw [step, h]
  exact if_pos hready

theorem step_of_command_waiting {w : CmdWord} {inp : Inputs} (h : s.host = .command w inp :: rest)
    (hbusy : commandReady s = false) : step s = .next s := by
  rw [step, h]
  exact if_neg (ne_true_of_eq_false hbusy)

theorem step_of_fill {samples : List Half} (h : s.host = .fill samples :: rest) :
    step s = .next (fillBuffer samples { s with host := rest }) := by rw [step, h]

theorem step_of_take {ch : Channel} (h : s.host = .take ch :: rest) :
    step s = .next { s with out := takeRecord ch s.out, host := rest } := by rw [step, h]

theorem step_of_rst (h : s.host = .rst :: rest) : step s = .next (assertReset { s with host := rest }) := by
  rw [step, h]

end

/-! ### What keeps `booted` -/

theorem booted_ite {c : Prop} [Decidable c] {t u : State} {b : Bool} (ht : t.booted = b) (hu : u.booted = b) :
    (if c then t else u).booted = b := by
  split
  · exact ht
  · exact hu

theorem pair_booted (p : PortIdx) (r : FrameRecord) (s : State) : (pair p r s).booted = s.booted := by
  rcases pair_cases p r s with ⟨ch, h⟩ | ⟨ch, addr, -, -, h⟩ <;> rw [h]
  · exact setChan_booted ..
  · rw [slotupd_booted, setChan_booted]

theorem consumeCapture_booted (s : State) : (consumeCapture s).booted = s.booted := by
  rcases consumeCapture_cases s with ⟨-, h⟩ | ⟨-, -, h⟩ | ⟨-, -, h⟩ <;> rw [h]
  · exact pair_booted ..
  · exact occacc_booted s s.sched.capPort

theorem expireProg_booted (s : State) : (expireProg s).booted = s.booted := booted_ite rfl rfl

theorem keepAlive_booted (s : State) : (keepAlive s).booted = s.booted := booted_ite rfl rfl

/-- No phase of `TICK` writes `booted` (45_scheduler.md R237). -/
theorem tickPhases_booted (s : State) : (tickPhases s).booted = s.booted := by
  rw [tickPhases, keepAlive_booted, expireProg_booted, addrreport_booted, occdeb_booted, slotexp_booted,
    consumeCapture_booted]

/-- A message keeps `booted` when its handler does: the collision rule leaves it alone (46_responder.md R261, R266). -/
theorem withPrologue_booted (src : Half) {handler : State → State} {s : State}
    (hhandler : (handler s).booted = s.booted) : (withPrologue src handler s).booted = s.booted :=
  booted_ite rfl (booted_ite rfl hhandler)

theorem handleInfoGet_booted (tag : Half) (s : State) : (handleInfoGet tag s).booted = s.booted := by
  unfold handleInfoGet
  split <;> rfl

theorem handleCfgGet_booted (tag : BitVec 32) (s : State) : (handleCfgGet tag s).booted = s.booted := by
  unfold handleCfgGet
  split <;> rfl

theorem handleCfgSet_booted (tag : BitVec 32) (value : Half) (s : State) :
    (handleCfgSet tag value s).booted = s.booted := by
  unfold handleCfgSet
  split <;> rfl

theorem handleAccdataGet_booted (id : Half) (port type : Byte) (s : State) :
    (handleAccdataGet id port type s).booted = s.booted := by
  refine booted_ite ?_ rfl
  split <;> rfl

theorem handlePort6Get_booted (id : Half) (port type : Byte) (s : State) :
    (handlePort6Get id port type s).booted = s.booted := by
  refine booted_ite ?_ rfl
  split <;> rfl

theorem exec_enc48_booted (sym : Symbol) (s : State) :
    ∃ t, exec (.enc48 sym) s = .next t ∧ t.booted = s.booted := by
  cases h : encRom s.config sym with
  | none => exact ⟨_, exec_enc48_of_encRom_none h, rfl⟩
  | some b => exact ⟨_, exec_enc48_of_encRom_some h, rfl⟩

/-- No operation but `BOOT` writes `booted` (R350, R352). -/
theorem exec_booted_of_ne_boot {i : Instr} (s : State) (hi : i ≠ .boot) :
    ∃ t, exec i s = .next t ∧ t.booted = s.booted := by
  cases i with
  | boot => exact absurd rfl hi
  | enc48 sym => exact exec_enc48_booted sym s
  | demod | extract | trigger | capdone | progopen => exact ⟨_, rfl, booted_ite rfl rfl⟩
  | tick => exact ⟨_, rfl, booted_ite rfl (tickPhases_booted s)⟩
  | pair p r => exact ⟨_, rfl, pair_booted p r s⟩
  | progexp => exact ⟨_, rfl, expireProg_booted s⟩
  | keepalive => exact ⟨_, rfl, keepAlive_booted s⟩
  | rxPingreq | rxOther => exact ⟨_, rfl, withPrologue_booted _ rfl⟩
  | rxPing | rxSetaddr => exact ⟨_, rfl, withPrologue_booted _ (booted_ite rfl rfl)⟩
  | rxInfoGet => exact ⟨_, rfl, withPrologue_booted _ (handleInfoGet_booted ..)⟩
  | rxCfgGet => exact ⟨_, rfl, withPrologue_booted _ (handleCfgGet_booted ..)⟩
  | rxCfgSet => exact ⟨_, rfl, withPrologue_booted _ (handleCfgSet_booted ..)⟩
  | rxAccdataGet => exact ⟨_, rfl, withPrologue_booted _ (handleAccdataGet_booted ..)⟩
  | rxPort6Get => exact ⟨_, rfl, withPrologue_booted _ (handlePort6Get_booted ..)⟩
  | dec84 | slotupd | slotexp | addrreport | occacc | occdeb | collision | reserved00 | reserved05 | reserved06
  | reserved07 | reserved0D | reserved0E | reserved0F | reserved19 | reserved1A | reserved1B | reserved1C | reserved1D
  | reserved1E | reserved1F => exact ⟨_, rfl, rfl⟩

/-- No operation clears `booted`: a second `BOOT` leaves it set (R350, R355(g)). -/
theorem booted_of_exec {i : Instr} {s t : State} (hb : s.booted = true) (hexec : exec i s = .next t) :
    t.booted = true := by
  have hkeeps : ∃ u, exec i s = .next u ∧ u.booted = s.booted := by
    by_cases hi : i = .boot
    · exact ⟨_, hi ▸ exec_boot_of_booted hb, finish_booted ..⟩
    · exact exec_booted_of_ne_boot s hi
  obtain ⟨u, hu, hbooted⟩ := hkeeps
  cases hexec.symm.trans hu
  exact hbooted.trans hb

/-- A step of a booted module leaves it booted, or is a `rst` (R350). -/
theorem booted_of_step {s t : State} (hb : s.booted = true) (hstep : step s = .next t) :
    t.booted = true ∨ ∃ rest, s.host = .rst :: rest := by
  cases hhost : s.host with
  | nil =>
    cases (step_of_idle hhost).symm.trans hstep
    exact .inl hb
  | cons event rest =>
    cases event with
    | rst => exact .inr ⟨rest, rfl⟩
    | fill samples =>
      cases (step_of_fill hhost).symm.trans hstep
      exact .inl hb
    | take ch =>
      cases (step_of_take hhost).symm.trans hstep
      exact .inl hb
    | command w inp =>
      cases hready : commandReady s with
      | false =>
        cases (step_of_command_waiting hhost hready).symm.trans hstep
        exact .inl hb
      | true =>
        rw [step_of_command_accepted hhost hready] at hstep
        exact .inl (booted_of_exec ((acceptCommand_booted ..).trans hb) hstep)

/-- Settles O10: the reset table, and of all events only `rst` clears `booted`. -/
theorem rstIsTheOnlyWayBack : Obligations.RstIsTheOnlyWayBack := by
  constructor
  · intro s rest hhost
    refine ⟨_, step_of_rst hhost, rfl, rfl, fun p => ?_, fun p k => ?_, fun p => ?_, rfl, rfl, rfl, rfl⟩
    · exact Vector.getElem_ofFn p.isLt
    · rw [assertReset_slots, Fin.getElem_fin, Fin.getElem_fin, Vector.getElem_ofFn, Vector.getElem_ofFn]
      rfl
    · exact Vector.getElem_ofFn p.isLt
  · intro s t hstep hb hcleared
    refine (booted_of_step hb hstep).resolve_left fun hset => ?_
    exact absurd hset (ne_true_of_eq_false hcleared)

end Sys2Proof.Machine
end

section
/-! PROOF. The command words and the wires of the output records (30_encoding.md R90 to R108). A packed word is a chain of
concatenations, so a field is read back by peeling off what stands below it, then what stands above it. A command word is
its op code in front of its payload: the op code chooses the row of the table, the row the slices of the payload. -/

namespace Sys2Proof.Machine
open Sys2Proof.Claims

/-! ### Command words -/

/-- The bit that codes a boundary kind names it (R99). -/
theorem boundaryOf_boundaryBit (kind : Boundary) : boundaryOf (boundaryBit kind) = kind := by
  cases kind <;> rfl

/-- On the op code and payload of an operation the decoder answers the operation (R90, R99). -/
theorem decodeFields_of_encodeFields {i : Instr} {op : BitVec 5} {p : BitVec 64} (h : encodeFields i = some (op, p)) :
    decodeFields op p = i := by
  cases i with
  | pair | slotupd | slotexp | addrreport | occacc | occdeb | progexp | keepalive | collision => cases h
  | capdone | tick | progopen | boot | reserved00 | reserved05 | reserved06 | reserved07 | reserved0D | reserved0E
  | reserved0F | reserved19 | reserved1A | reserved1B | reserved1C | reserved1D | reserved1E | reserved1F =>
    cases h
    rfl
  | trigger kind =>
    cases h
    refine congrArg Instr.trigger (Eq.trans ?_ (boundaryOf_boundaryBit kind))
    rw [field, extract_append_low (h := by omega), extract_all]
  | demod | enc48 | dec84 | extract | rxPingreq | rxPing | rxInfoGet | rxCfgGet | rxCfgSet | rxAccdataGet | rxPort6Get
  | rxSetaddr | rxOther =>
    cases h
    simp only [decodeFields, field, BitVec.ofNat_eq_ofNat, BitVec.reduceToNat, Instr.demod.injEq, Instr.enc48.injEq,
      Instr.dec84.injEq, Instr.extract.injEq, Instr.rxPingreq.injEq, Instr.rxPing.injEq, Instr.rxInfoGet.injEq,
      Instr.rxCfgGet.injEq, Instr.rxCfgSet.injEq, Instr.rxAccdataGet.injEq, Instr.rxPort6Get.injEq,
      Instr.rxSetaddr.injEq, Instr.rxOther.injEq]
    and_intros
    all_goals
      repeat rw [extract_append_high (h := by omega)]
      repeat rw [extract_append_low (h := by omega)]
      exact extract_all _

/-- The word of an operation is its op code in front of its payload (R92). -/
theorem encode_eq_some_iff (i : Instr) (w : CmdWord) :
    encode i = some w ↔ ∃ op p, encodeFields i = some (op, p) ∧ mkWord op p = w := by
  rw [encode, Option.map_eq_some_iff, Prod.exists]

/-- Settles O1: the word splits into the op code and the payload again, and these decode to the operation. -/
theorem decodeOfEncodeIsIdentity : Obligations.DecodeOfEncodeIsIdentity := by
  intro i w h
  obtain ⟨op, p, hfields, rfl⟩ := (encode_eq_some_iff i w).mp h
  rw [decode_mkWord, decodeFields_of_encodeFields hfields]

/-- Each of the 32 op codes decodes to an operation of that op code, whatever the payload (R90, R118). -/
theorem encodeFields_decodeFields (op : BitVec 5) (p : BitVec 64) :
    ∃ p', encodeFields (decodeFields op p) = some (op, p') := by
  obtain ⟨⟨n, hn⟩⟩ := op
  interval_cases n <;> exact ⟨_, rfl⟩

/-- Every word decodes to an operation that has a word of the same op code (R90). -/
theorem encode_decode (w : CmdWord) : ∃ p, encode (decode w) = some (mkWord (opOf w) p) := by
  obtain ⟨p, hp⟩ := encodeFields_decodeFields (opOf w) (payloadOf w)
  exact ⟨p, (encode_eq_some_iff ..).mpr ⟨_, _, hp, rfl⟩⟩

/-- Settles O2: the word of the decoded operation has its op code, and decodes to it by the round trip. -/
theorem encodeOfDecodeKeepsNamedBits : Obligations.EncodeOfDecodeKeepsNamedBits := by
  intro w
  obtain ⟨p, hp⟩ := encode_decode w
  exact ⟨_, hp, opOf_mkWord _ p, decodeOfEncodeIsIdentity _ _ hp⟩

/-- Settles O3, by running the decoder on each of the ten words. -/
theorem vectorWordsDecode : Obligations.VectorWordsDecode := by
  refine ⟨?_, ?_, ?_, ?_, ?_, ?_, ?_, ?_, ?_, ?_⟩ <;> rfl

/-- Settles O26: a reserved op code decodes to its own operation, and each of these only reports. -/
theorem reservedOpsOnlyReport : Obligations.ReservedOpsOnlyReport := by
  constructor
  · intro op hop p s
    rw [decode_mkWord]
    fin_cases hop <;> rfl
  · intro p s
    and_intros <;> rfl

/-! ### Wires of the output records -/

/-- The purpose bit is 0 for a decode window and 1 for a current-sense capture (R101). -/
theorem purposeBit_eq_zero_iff (u : Purpose) : purposeBit u = 0 ↔ u = .railcom := by
  cases u <;> decide

/-- `ARM` carries the port above the purpose bit (R101). -/
theorem armWire_fields (p : PortIdx) (u : Purpose) :
    (armWire p u).extractLsb' 1 3 = BitVec.ofNat 3 p.val ∧ (armWire p u).extractLsb' 0 1 = purposeBit u := by
  unfold armWire
  rw [extract_append_high (h := by omega), extract_append_low (h := by omega)]
  exact ⟨extract_all _, extract_all _⟩

/-- Settles O4: each field of each record, by its place in the concatenation. -/
theorem outputWiresCarryTheFields : Obligations.OutputWiresCarryTheFields := by
  constructor
  · intro p u
    obtain ⟨hport, hpurpose⟩ := armWire_fields p u
    exact ⟨hport, hpurpose ▸ purposeBit_eq_zero_iff u⟩
  · dsimp only [txWire]
    and_intros
    all_goals
      intros
      and_intros
      all_goals
        repeat rw [extract_append_high (h := by omega)]
        repeat rw [extract_append_low (h := by omega)]
        exact extract_all _

end Sys2Proof.Machine
end

section
/-! PROOF. The events of the host (30_encoding.md R91 to R96, 70_reset_and_hazards.md R363, R367): a command runs or waits,
a take removes one record, a fill stores its samples. -/

namespace Sys2Proof.Machine

/-! ### Commands -/

/-- An operation with a command word is well formed by the widths of its operands (R99). -/
theorem wf_of_isPortCommand {i : Instr} (h : isPortCommand i = true) : i.wf = true := by
  cases i with
  | pair | slotupd => cases h
  | _ => rfl

/-- A word decodes to an operation of the command port, never to a micro-operation (R90). -/
theorem isPortCommand_decode (w : CmdWord) : isPortCommand (decode w) = true := by
  obtain ⟨p, hp⟩ := encode_decode w
  rw [isPortCommand, hp, Option.isSome_some]

/-- A command is accepted exactly when no record waits (R367). -/
theorem commandReady_iff (s : State) : commandReady s = true ↔ s.out = [] := List.isEmpty_iff

/-- Settles O6: with no record waiting the command is accepted. -/
theorem stepRunsTheDecodedCommand : Obligations.StepRunsTheDecodedCommand := by
  refine ⟨fun w => wf_of_isPortCommand (isPortCommand_decode w), ?_⟩
  rintro s w inp rest i hhost hout rfl -
  exact step_of_command_accepted hhost ((commandReady_iff s).mpr hout)

/-- Settles O7: a waiting record keeps the command out, and with no event the CORE is idle. -/
theorem stepWaits : Obligations.StepWaits := by
  refine ⟨fun s w inp rest hhost hout => ?_, fun _ => step_of_idle⟩
  exact step_of_command_waiting hhost (eq_false_of_ne_true fun hready => hout ((commandReady_iff s).mp hready))

/-! ### Taken records -/

/-- A take from a channel without a waiting record moves nothing (R96). -/
theorem takeRecord_of_none {ch : Channel} {out : List Output} (h : ∀ o ∈ out, channelOf o ≠ ch) :
    takeRecord ch out = out :=
  List.eraseP_of_forall_not fun o ho => decide_eq_true_iff.not.mpr (h o ho)

/-- A take removes the first waiting record of its channel and keeps the order of the others (R96, log 12). -/
theorem takeRecord_of_first {ch : Channel} {o : Output} (a b : List Output) (ho : channelOf o = ch)
    (ha : ∀ x ∈ a, channelOf x ≠ ch) : takeRecord ch (a ++ o :: b) = a ++ b := by
  rw [takeRecord, List.eraseP_append_right _ fun x hx => decide_eq_true_iff.not.mpr (ha x hx),
    List.eraseP_cons, decide_eq_true ho, cond_true]

/-- Settles O8: the channel has a waiting record or none. -/
theorem takeRemovesFirstOfChannel : Obligations.TakeRemovesFirstOfChannel := by
  intro s ch rest hhost
  rw [step_of_take hhost]
  constructor
  · intro hnone
    rw [takeRecord_of_none hnone]
  · intro a o b hout ho ha
    rw [hout, takeRecord_of_first a b ho ha]

/-! ### Fills -/

/-- A fill that keeps the sampler's duty stores what it supplies (R363). -/
theorem storedSamples_of_fits {c : Config} {l : List Half} (m : Memory) (h : l.length ≤ bufLength c) :
    storedSamples c m l = l := if_pos h

/-- Settles O9: a fill that fits stores its samples, any other as many free values as BUF holds. -/
theorem fillStoresTheSamples : Obligations.FillStoresTheSamples := by
  intro s l rest hhost hwf
  rw [step_of_fill hhost]
  constructor
  · intro hfits
    refine ⟨_, rfl, writeSamples_wf _ _ _ hwf, fun i hi => ?_, fun i hi => ?_⟩
    · simpa [storedSamples_of_fits s.buf hfits] using readElement_writeSamples_same l s.buf 0 i hwf hi
    · rw [storedSamples_of_fits s.buf hfits]
      exact readElement_writeSamples_other l s.buf 0 i (.inr (by omega))
  · intro _
    refine ⟨_, rfl, writeSamples_wf _ _ _ hwf, fun i hi => ?_⟩
    have hlen : (storedSamples s.config s.buf l).length ≤ max s.config.winLen s.config.csLen :=
      storedSamples_length_le s.config s.buf l
    exact readElement_writeSamples_other _ s.buf 0 i (.inr ((Nat.zero_add _).le.trans (hlen.trans hi)))

end Sys2Proof.Machine
end

section
/-! PROOF. The pings (46_responder.md R264 to R271, R296): a ping requested, a master adopted, the keep-alive interval. -/

namespace Sys2Proof.Machine
open Sys2Proof.Claims

/-- A ping qualifies when its type has the bits of the mask (R270). -/
theorem pingQualifies_iff (type : Half) : pingQualifies type = true ↔ type &&& 0x2000 = 0x2000 := beq_iff_eq

/-- A ping names another master when none is tracked, or one with another id (R270, R271(c)). -/
theorem masterDiffers_iff (s : State) (masterUid : Half) :
    masterDiffers s masterUid = true ↔ s.sess.hasMaster = false ∨ masterUid ≠ s.sess.masterNetworkId := by
  rw [masterDiffers, Bool.or_eq_true, Bool.not_eq_true', bne_iff_ne]

/-- A ping that qualifies and names another master is adopted and answered (R270). -/
theorem handlePing_of_adopted {masterUid type : Half} {s : State} (hq : pingQualifies type = true)
    (hd : masterDiffers s masterUid = true) :
    handlePing masterUid type s = (emitPing (adoptMaster s masterUid)).finish .handled .none :=
  if_pos (by rw [hq, hd]; rfl)

/-- Any other ping is UNHANDLED (R270). -/
theorem handlePing_of_not_adopted {masterUid type : Half} {s : State}
    (h : ¬ (pingQualifies type = true ∧ masterDiffers s masterUid = true)) :
    handlePing masterUid type s = s.finish .unhandled .none :=
  if_neg (by rwa [Bool.and_eq_true])

/-- The record of a ping is the one the statements write out (R104). -/
theorem emitPing_finish (s : State) (st : Status) :
    (emitPing s).finish st .none = { s with
      resp := { lastPingTime := s.inp.now }
      out := s.out ++ [pingOf s.cfg.networkId s.sess s.config, status st] } :=
  congrArg (fun t : State => { t with resp := { lastPingTime := s.inp.now } }) (emit_emit s _ _)

/-- Settles O44: the handler of a ping request is one ping. -/
theorem pingRequestIsAnswered : Obligations.PingRequestIsAnswered := by
  intro src s hforeign
  rw [← emitPing_finish]
  exact congrArg Host.Outcome.next (withPrologue_of_foreign handlePingreq hforeign)

/-- `RX_PING` from another node is its handler (R261, R270). -/
theorem exec_rxPing_of_foreign {src : Half} {s : State} (hforeign : Foreign s src) (m ty sid : Half) :
    exec (.rxPing src m ty sid) s = .next (handlePing m ty s) :=
  congrArg Host.Outcome.next (withPrologue_of_foreign _ hforeign)

/-- Settles O45: the mask and the tracked master decide. -/
theorem pingAdoptsNewMaster : Obligations.PingAdoptsNewMaster := by
  intro src m ty sid s hforeign
  rw [exec_rxPing_of_foreign hforeign, ← pingQualifies_iff, ← masterDiffers_iff]
  constructor
  · intro hq hd
    rw [handlePing_of_adopted hq hd, emitPing_finish]
    rfl
  · intro hother
    rw [handlePing_of_not_adopted hother]
    rfl

/-- Settles O55: of the two cases of `KEEPALIVE` the elapsed time leaves one. -/
theorem keepaliveSendsWhenDue : Obligations.KeepaliveSendsWhenDue := by
  intro s
  have helapsed : elapsed s.inp.now s.resp.lastPingTime = since s.inp.now s.resp.lastPingTime := elapsed_eq _ _
  show (_ → Host.Outcome.next (keepAlive s) = _) ∧ (_ → Host.Outcome.next (keepAlive s) = _)
  rcases keepAlive_cases s with ⟨hdue, heq⟩ | ⟨hearly, heq⟩ <;> rw [heq]
  · rw [helapsed] at hdue
    exact ⟨fun _ => rfl, fun hearly => absurd hdue (Nat.not_le.mpr hearly)⟩
  · rw [helapsed] at hearly
    exact ⟨fun hdue => absurd hdue (Nat.not_le.mpr hearly), fun _ => rfl⟩

end Sys2Proof.Machine
end

section
/-! PROOF. Everything an operation can do. `Acts` lists the effects, with the operation and the conditions of those whose
operation matters to some statement; a command then ends with its one result record, and a micro-operation has none
(`Performs`). `exec_performs` ties both to `exec`, so what holds of every operation is a case analysis of the effects. -/

namespace Sys2Proof.Machine
open Sys2Proof.Claims

/-- The states in which the operation `i` in `s` can leave the CORE, but for the result record of a command. An effect
without conditions is listed for every operation: nothing proved from it depends on which has it. -/
inductive Acts (i : Instr) (s : State) : State → Prop
  | nothing : Acts i s s
  | answer (m : TxRecord) : Acts i s (s.emit [.tx m])
  | arm (kind : Boundary) (hi : i = .trigger kind) (hb : s.booted = true) (hidle : captureIdle s.sched = true) :
    Acts i s (armCapture kind s)
  | handOver (hi : i = .capdone) (hb : s.booted = true) (hrun : s.sched.captureRunning = true) :
    Acts i s { s with sched := { s.sched with captureRunning := false, dataReady := true } }
  | tick (hi : i = .tick) (hb : s.booted = true) : Acts i s (tickPhases s)
  | openWindow : Acts i s { s with prog := { active := true, openedAt := s.inp.now } }
  | closeWindow : Acts i s { s with prog := { s.prog with active := false } }
  | load (hvalid : storedRecordValid s.inp = true) : Acts i s (loadConfig (bootConfig s.config s.inp) s)
  | initialise (hinvalid : storedRecordValid s.inp = false) :
    Acts i s (emitPersist (loadConfig (bootConfig s.config s.inp) s))
  | collide : Acts i s (collide s)
  | ping : Acts i s (emitPing s)
  | adopt (src m ty sid : Half) (hi : i = .rxPing src m ty sid) (hforeign : Foreign s src)
    (hq : pingQualifies ty = true) (hd : masterDiffers s m = true) : Acts i s (emitPing (adoptMaster s m))
  | writeField (tag : BitVec 32) (f : CfgField) (value : Half) :
    Acts i s ((emitPersist (setField s f value)).emit [.tx (.cfgAck s.cfg.networkId tag value)])
  | setAddress (addr : Half) :
    Acts i s (emitPersist { s with cfg := { s.cfg with moduleAddress := addr },
                                   prog := { s.prog with active := false } })
  | pair (p : PortIdx) (r : FrameRecord) : Acts i s (pair p r s)
  | slotupd (p : PortIdx) (addr : BitVec 14) (dir : BitVec 2) (hi : i = .slotupd p addr dir) :
    Acts i s (slotupd p addr dir s)
  | slotexp : Acts i s (slotexp s)
  | addrreport : Acts i s (addrreport s)
  | occacc (p : PortIdx) : Acts i s (occacc p s)
  | occdeb (hi : i = .occdeb) : Acts i s (occdeb s)

/-- The statuses that refuse a command (60_exceptions.md R323). -/
def Refuses (st : Status) : Prop := st = .ignored ∨ st = .reserved ∨ st = .unhandled

/-- The states in which the operation `i` in `s` can leave the CORE: its effect, and for a command one result record, whose
status refuses the command only where there is no effect. -/
inductive Performs (i : Instr) (s : State) : State → Prop
  | micro {u : State} (hi : isPortCommand i = false) (hact : Acts i s u) : Performs i s u
  | command {u : State} (hi : isPortCommand i = true) (hact : Acts i s u) (st : Status) (v : ResultValue)
    (hrefuse : Refuses st → u = s) : Performs i s (u.finish st v)

/-! ### Each operation performs one of its effects -/

section
variable {i : Instr} {s t u : State}

theorem Performs.ite {c : Prop} [Decidable c] (ht : c → Performs i s t) (hu : ¬ c → Performs i s u) :
    Performs i s (if c then t else u) := by
  split
  · exact ht ‹_›
  · exact hu ‹_›

/-- A command that only reports. -/
theorem Performs.report (hi : isPortCommand i = true) (st : Status) (v : ResultValue) : Performs i s (s.finish st v) :=
  .command hi .nothing st v fun _ => rfl

/-- A command that ends with DONE. -/
theorem Performs.done (hi : isPortCommand i = true) (hact : Acts i s u) : Performs i s (u.finish .done .none) :=
  .command hi hact _ _ (by simp [Refuses])

/-- A message that ends with HANDLED. -/
theorem Performs.handled (hi : isPortCommand i = true) (hact : Acts i s u) : Performs i s (u.finish .handled .none) :=
  .command hi hact _ _ (by simp [Refuses])

/-- A message is a command of the command port (R90). -/
theorem isPortCommand_of_senderOf {src : Half} (h : senderOf i = some src) : isPortCommand i = true := by
  cases i <;> cases h <;> rfl

/-- The prologue reports, collides, or leaves the message to its handler (R261). -/
theorem performs_withPrologue {src : Half} {handler : State → State} (hsender : senderOf i = some src)
    (hhandler : Foreign s src → Performs i s (handler s)) : Performs i s (withPrologue src handler s) := by
  have hi := isPortCommand_of_senderOf hsender
  rcases withPrologue_cases src handler s with ⟨-, h⟩ | ⟨-, -, h⟩ | ⟨hb, hsrc, h⟩ <;> rw [h]
  · exact .report hi _ _
  · exact .command hi .collide _ _ (by simp [Refuses])
  · exact hhandler ⟨hb, hsrc⟩

variable (hi : isPortCommand i = true)
include hi

theorem performs_handleInfoGet (tag : Half) : Performs i s (handleInfoGet tag s) := by
  unfold handleInfoGet
  split
  · exact .handled hi (.answer _)
  · exact .report hi _ _

theorem performs_handleCfgGet (tag : BitVec 32) : Performs i s (handleCfgGet tag s) := by
  unfold handleCfgGet
  split
  · exact .handled hi (.answer _)
  · exact .report hi _ _

theorem performs_handleCfgSet (tag : BitVec 32) (value : Half) : Performs i s (handleCfgSet tag value s) := by
  unfold handleCfgSet
  split
  · exact .handled hi (.writeField ..)
  · exact .report hi _ _

theorem performs_handleAccdataGet (id : Half) (port type : Byte) : Performs i s (handleAccdataGet id port type s) := by
  refine .ite (fun _ => ?_) fun _ => .report hi _ _
  split
  · exact .handled hi (.answer _)
  · exact .report hi _ _

theorem performs_handlePort6Get (id : Half) (port type : Byte) : Performs i s (handlePort6Get id port type s) := by
  refine .ite (fun _ => ?_) fun _ => .report hi _ _
  split
  · exact .handled hi (.answer _)
  · exact .report hi _ _

theorem performs_handleSetaddr (addr : Half) : Performs i s (handleSetaddr addr s) :=
  .ite (fun _ => .handled hi (.setAddress addr)) fun _ => .report hi _ _

end

theorem performs_handlePing {src m ty sid : Half} {s : State} (hforeign : Foreign s src) :
    Performs (.rxPing src m ty sid) s (handlePing m ty s) := by
  by_cases h : pingQualifies ty = true ∧ masterDiffers s m = true
  · obtain ⟨hq, hd⟩ := h
    rw [handlePing_of_adopted hq hd]
    exact .handled rfl (.adopt src m ty sid rfl hforeign hq hd)
  · rw [handlePing_of_not_adopted h]
    exact .report rfl _ _

theorem exec_enc48_performs (sym : Symbol) (s : State) :
    ∃ t, exec (.enc48 sym) s = .next t ∧ Performs (.enc48 sym) s t := by
  cases h : encRom s.config sym with
  | none => exact ⟨_, exec_enc48_of_encRom_none h, .report rfl _ _⟩
  | some b => exact ⟨_, exec_enc48_of_encRom_some h, .report rfl _ _⟩

/-- A first `BOOT` loads the stored record or makes a configuration of its own (70_reset_and_hazards.md R352, R354). -/
theorem performs_bootUp (s : State) : Performs .boot s ((bootUp s).finish .done .none) := by
  refine .done rfl ?_
  unfold bootUp
  split
  case isTrue hvalid => exact .load hvalid
  case isFalse hinvalid => exact .initialise (eq_false_of_ne_true hinvalid)

theorem performs_expireProg (s : State) : Performs .progexp s (expireProg s) :=
  .ite (fun _ => .micro rfl .closeWindow) fun _ => .micro rfl .nothing

theorem performs_keepAlive (s : State) : Performs .keepalive s (keepAlive s) :=
  .ite (fun _ => .micro rfl .ping) fun _ => .micro rfl .nothing

/-- Every operation, on every state, answers a next state, which one of its effects leaves. -/
theorem exec_performs (i : Instr) (s : State) : ∃ t, exec i s = .next t ∧ Performs i s t := by
  cases i with
  | enc48 sym => exact exec_enc48_performs sym s
  | demod | extract => exact ⟨_, rfl, .ite (fun _ => .report rfl _ _) fun _ => .report rfl _ _⟩
  | trigger kind =>
    refine ⟨_, rfl, .ite (fun h => ?_) fun _ => .report rfl _ _⟩
    obtain ⟨hb, hidle⟩ := Bool.and_eq_true_iff.mp h
    exact .done rfl (.arm kind rfl hb hidle)
  | capdone =>
    refine ⟨_, rfl, .ite (fun h => ?_) fun _ => .report rfl _ _⟩
    obtain ⟨hb, hrun⟩ := Bool.and_eq_true_iff.mp h
    exact .done rfl (.handOver rfl hb hrun)
  | tick => exact ⟨_, rfl, .ite (fun _ => .report rfl _ _) fun hb => .done rfl (.tick rfl (eq_true_of_ne_false hb))⟩
  | progopen => exact ⟨_, rfl, .ite (fun _ => .report rfl _ _) fun _ => .done rfl .openWindow⟩
  | boot => exact ⟨_, rfl, .ite (fun _ => .report rfl _ _) fun _ => performs_bootUp s⟩
  | rxPingreq => exact ⟨_, rfl, performs_withPrologue rfl fun _ => .handled rfl .ping⟩
  | rxPing => exact ⟨_, rfl, performs_withPrologue rfl performs_handlePing⟩
  | rxInfoGet => exact ⟨_, rfl, performs_withPrologue rfl fun _ => performs_handleInfoGet rfl _⟩
  | rxCfgGet => exact ⟨_, rfl, performs_withPrologue rfl fun _ => performs_handleCfgGet rfl _⟩
  | rxCfgSet => exact ⟨_, rfl, performs_withPrologue rfl fun _ => performs_handleCfgSet rfl _ _⟩
  | rxAccdataGet => exact ⟨_, rfl, performs_withPrologue rfl fun _ => performs_handleAccdataGet rfl _ _ _⟩
  | rxPort6Get => exact ⟨_, rfl, performs_withPrologue rfl fun _ => performs_handlePort6Get rfl _ _ _⟩
  | rxSetaddr => exact ⟨_, rfl, performs_withPrologue rfl fun _ => performs_handleSetaddr rfl _⟩
  | rxOther => exact ⟨_, rfl, performs_withPrologue rfl fun _ => .report rfl _ _⟩
  | pair p r => exact ⟨_, rfl, .micro rfl (.pair p r)⟩
  | slotupd p addr dir => exact ⟨_, rfl, .micro rfl (.slotupd p addr dir rfl)⟩
  | slotexp => exact ⟨_, rfl, .micro rfl .slotexp⟩
  | addrreport => exact ⟨_, rfl, .micro rfl .addrreport⟩
  | occacc p => exact ⟨_, rfl, .micro rfl (.occacc p)⟩
  | occdeb => exact ⟨_, rfl, .micro rfl (.occdeb rfl)⟩
  | progexp => exact ⟨_, rfl, performs_expireProg s⟩
  | keepalive => exact ⟨_, rfl, performs_keepAlive s⟩
  | collision => exact ⟨_, rfl, .micro rfl .collide⟩
  | dec84 | reserved00 | reserved05 | reserved06 | reserved07 | reserved0D | reserved0E | reserved0F | reserved19
  | reserved1A | reserved1B | reserved1C | reserved1D | reserved1E | reserved1F => exact ⟨_, rfl, .report rfl _ _⟩

/-- Whatever state an operation answers, one of its effects leaves it. -/
theorem performs_of_exec {i : Instr} {s t : State} (h : exec i s = .next t) : Performs i s t := by
  obtain ⟨u, hu, hperf⟩ := exec_performs i s
  cases h.symm.trans hu
  exact hperf

/-- Settles O13: no effect is a fault or a refusal. -/
theorem everyOperationCompletes : Obligations.EveryOperationCompletes := by
  intro i s
  obtain ⟨t, ht, -⟩ := exec_performs i s
  exact ⟨t, ht⟩

/-- Settles O57: each event answers a next state; a fill and a take write the fields named and no other. -/
theorem hostCannotStopTheCore : Obligations.HostCannotStopTheCore := by
  constructor
  · intro s
    cases hhost : s.host with
    | nil => exact ⟨s, step_of_idle hhost⟩
    | cons event rest =>
      cases event with
      | rst => exact ⟨_, step_of_rst hhost⟩
      | fill samples => exact ⟨_, step_of_fill hhost⟩
      | take ch => exact ⟨_, step_of_take hhost⟩
      | command w inp =>
        cases hready : commandReady s with
        | false => exact ⟨s, step_of_command_waiting hhost hready⟩
        | true =>
          rw [step_of_command_accepted hhost hready]
          exact everyOperationCompletes _ _
  · intro s t hstep hcommand hrst
    cases hhost : s.host with
    | nil =>
      cases (step_of_idle hhost).symm.trans hstep
      rfl
    | cons event rest =>
      cases event with
      | rst => exact absurd hhost (hrst rest)
      | command w inp => exact absurd hhost (hcommand w inp rest)
      | fill samples =>
        cases (step_of_fill hhost).symm.trans hstep
        rfl
      | take ch =>
        cases (step_of_take hhost).symm.trans hstep
        rfl

end Sys2Proof.Machine
end

section
/-! PROOF. What every operation leaves alone, and who moves the session (46_responder.md R272), the capture flags
(45_scheduler.md R240) and the reported states (44_occupancy.md R216). `PAIR` and `TICK` are the two effects that are no
single record update: their frames are said once. -/

namespace Sys2Proof.Machine
open Sys2Proof.Claims

/-! ### The frames of `PAIR` and `TICK` -/

/-- `PAIR` writes the slots and the channel state at most (43_assembler.md R184). -/
theorem pair_frame (p : PortIdx) (r : FrameRecord) (s : State) :
    ∃ slots chans, pair p r s = { s with slots := slots, chans := chans } := by
  rcases pair_cases p r s with ⟨ch, h⟩ | ⟨ch, addr, -, -, h⟩ <;> exact ⟨_, _, h⟩

/-- Phase T1 writes the registers of the ports and clears `dataReady` at most (45_scheduler.md R238). -/
theorem consumeCapture_frame (s : State) : ∃ ports slots chans, consumeCapture s =
    { s with ports := ports, slots := slots, chans := chans, sched := { s.sched with dataReady := false } } := by
  rcases consumeCapture_cases s with ⟨hidle, h⟩ | ⟨-, -, h⟩ | ⟨-, -, h⟩ <;> rw [h]
  · exact ⟨s.ports, s.slots, s.chans, by rw [← hidle]⟩
  · obtain ⟨slots, chans, hpair⟩ := pair_frame s.sched.capPort
      (extractBuffer s s.ports[s.sched.capPort].voltageOffset.toNat s.thr.thresholdVoltage.toNat) s
    exact ⟨s.ports, slots, chans, by rw [hpair]⟩
  · exact ⟨_, s.slots, s.chans, rfl⟩

theorem expireProg_frame (s : State) : ∃ prog, expireProg s = { s with prog := prog } := by
  rcases expireProg_cases s with ⟨-, -, h⟩ | ⟨-, h⟩ <;> exact ⟨_, h⟩

theorem keepAlive_frame (s : State) : ∃ resp out, keepAlive s = { s with resp := resp, out := out } := by
  rcases keepAlive_cases s with ⟨-, h⟩ | ⟨-, h⟩ <;> exact ⟨_, _, h⟩

/-- The sweeps T2 to T4 write the ports, the slots and the records at most (45_scheduler.md R237). -/
theorem sweeps_frame (s : State) : ∃ ports slots out,
    addrreport (occdeb (slotexp s)) = { s with ports := ports, slots := slots, out := out } :=
  ⟨_, _, _, rfl⟩

/-- A `TICK` leaves the parameters, `cfg`, `thr`, the session, the scheduler but for `dataReady`, BUF, the sampled inputs
and the host's events (45_scheduler.md R237). -/
theorem tickPhases_frame (s : State) : ∃ ports slots chans resp prog out, tickPhases s =
    { s with ports := ports, slots := slots, chans := chans, resp := resp, prog := prog, out := out,
             sched := { s.sched with dataReady := false } } := by
  obtain ⟨_, _, chans, hconsume⟩ := consumeCapture_frame s
  obtain ⟨ports, slots, _, hsweep⟩ := sweeps_frame (consumeCapture s)
  obtain ⟨prog, hexpire⟩ := expireProg_frame (addrreport (occdeb (slotexp (consumeCapture s))))
  obtain ⟨resp, out, halive⟩ := keepAlive_frame (expireProg (addrreport (occdeb (slotexp (consumeCapture s)))))
  refine ⟨ports, slots, chans, resp, prog, out, ?_⟩
  rw [tickPhases, halive, hexpire, hsweep, hconsume]

/-! ### The interface: parameters, BUF, sampled inputs, the host's events -/

/-- The parameters, BUF, the sampled inputs and the host's events of `s` still stand in `t` (20_memory.md R61). -/
structure KeepsInterface (s t : State) : Prop where
  config_eq : t.config = s.config
  buf_eq : t.buf = s.buf
  inp_eq : t.inp = s.inp
  host_eq : t.host = s.host

theorem Acts.keepsInterface {i : Instr} {s u : State} (h : Acts i s u) : KeepsInterface s u := by
  cases h with
  | tick =>
    obtain ⟨_, _, _, _, _, _, hframe⟩ := tickPhases_frame s
    rw [hframe]
    exact ⟨rfl, rfl, rfl, rfl⟩
  | pair p r =>
    obtain ⟨_, _, hframe⟩ := pair_frame p r s
    rw [hframe]
    exact ⟨rfl, rfl, rfl, rfl⟩
  | _ => exact ⟨rfl, rfl, rfl, rfl⟩

/-- No operation writes to the interface; a result record does not either. -/
theorem keepsInterface_of_exec {i : Instr} {s t : State} (h : exec i s = .next t) : KeepsInterface s t := by
  cases performs_of_exec h with
  | micro _ hact => exact hact.keepsInterface
  | command _ hact =>
    obtain ⟨hconfig, hbuf, hinp, hhost⟩ := hact.keepsInterface
    exact ⟨hconfig, hbuf, hinp, hhost⟩

/-- Settles O14: the interface is kept, and with BUF every byte of it. -/
theorem operationsLeaveBufferAndInputs : Obligations.OperationsLeaveBufferAndInputs := by
  intro i s t h
  obtain ⟨hconfig, hbuf, hinp, hhost⟩ := keepsInterface_of_exec h
  exact ⟨hconfig, hbuf, hinp, hhost, fun a => by rw [hbuf]⟩

/-! ### The records of an effect, none of them a result -/

/-- `t` has the records of `s` and after them others, none of which is a result (30_encoding.md R98, R100). -/
def EmitsNoResult (s t : State) : Prop :=
  ∃ recs, t.out = s.out ++ recs ∧ ∀ o ∈ recs, ∀ r, o ≠ .res r

theorem EmitsNoResult.refl (s : State) : EmitsNoResult s s := ⟨[], (List.append_nil _).symm, by simp⟩

/-- The records of `OCCDEB` are no results (44_occupancy.md R214). -/
theorem announceRecords_no_result (s : State) : ∀ o ∈ portList.flatMap (announceRecords s), ∀ r, o ≠ .res r := by
  rw [flatMap_announceRecords]
  intro o ho r hr
  obtain ⟨p, -, rfl⟩ := List.mem_map.mp ho
  cases hr

/-- The records of `ADDRREPORT` are no results (43_assembler.md R195). -/
theorem addrReportRecords_no_result (s : State) : ∀ o ∈ portList.flatMap (addrReportRecords s), ∀ r, o ≠ .res r := by
  rw [flatMap_addrReportRecords]
  simp only [List.mem_flatMap, List.mem_map]
  rintro o ⟨_, ⟨p, -, rfl⟩, ho⟩ r rfl
  simp [accDataPair] at ho

theorem tickPhases_emitsNoResult (s : State) : EmitsNoResult s (tickPhases s) := by
  obtain ⟨t, ping, hout, hping⟩ := tickPhases_out s
  refine ⟨_, by rw [hout, List.append_assoc, List.append_assoc], ?_⟩
  simp only [List.mem_append]
  rintro o (ho | ho | ho)
  · exact announceRecords_no_result _ o ho
  · exact addrReportRecords_no_result _ o ho
  · rcases hping with rfl | rfl <;> simp_all

theorem Acts.emitsNoResult {i : Instr} {s u : State} (h : Acts i s u) : EmitsNoResult s u := by
  cases h with
  | tick => exact tickPhases_emitsNoResult s
  | addrreport => exact ⟨_, rfl, addrReportRecords_no_result s⟩
  | occdeb => exact ⟨_, rfl, announceRecords_no_result s⟩
  | pair p r =>
    obtain ⟨_, _, hframe⟩ := pair_frame p r s
    rw [hframe]
    exact .refl s
  | collide => exact ⟨_, (collide_out s).trans (List.append_assoc ..), by simp⟩
  | writeField tag f value => exact ⟨_, List.append_assoc .., by simp⟩
  | answer | arm | initialise | ping | adopt | setAddress => exact ⟨_, rfl, by simp⟩
  | nothing | handOver | openWindow | closeWindow | load | slotupd | slotexp | occacc => exact .refl s

/-- Settles O16: the records of the effect, and after them the one result of a command. -/
theorem oneResultPerCommand : Obligations.OneResultPerCommand := by
  intro i s
  obtain ⟨t, ht, hperf⟩ := exec_performs i s
  cases hperf with
  | micro hi hact =>
    obtain ⟨recs, hout, hrecs⟩ := hact.emitsNoResult
    exact ⟨t, recs, ht, hrecs, fun hi' => absurd hi' (ne_true_of_eq_false hi), fun _ => hout⟩
  | command hi hact st v _ =>
    obtain ⟨recs, hout, hrecs⟩ := hact.emitsNoResult
    refine ⟨_, recs, ht, hrecs, fun _ => ⟨⟨st, v⟩, ?_⟩, fun hi' => absurd hi (ne_true_of_eq_false hi')⟩
    rw [finish_out, hout]
    rfl

/-- Settles O17: the last record tells the status of the command, and one that refuses comes with no effect. -/
theorem refusedCommandsChangeNothing : Obligations.RefusedCommandsChangeNothing := by
  intro i s t recs r hexec hout hrefused
  cases performs_of_exec hexec with
  | micro _ hact =>
    obtain ⟨recs', hout', hrecs'⟩ := hact.emitsNoResult
    have hsame : recs' = recs ++ [.res r] := by
      rw [hout', List.append_assoc] at hout
      exact List.append_cancel_left hout
    exact absurd rfl (hrecs' (.res r) (by simp [hsame]) r)
  | command _ _ st v hrefuse =>
    obtain ⟨-, hlast⟩ := List.append_inj' (hout : _ ++ [result st v] = _) rfl
    obtain rfl : r = ⟨st, v⟩ := by simpa [result] using hlast.symm
    rw [hrefuse hrefused]
    rfl

/-! ### The session -/

/-- Only an adopted ping writes the session (46_responder.md R272). -/
theorem Acts.sess_eq {i : Instr} {s u : State} (h : Acts i s u) : u.sess = s.sess ∨
    ∃ src m ty sid, i = .rxPing src m ty sid ∧ Foreign s src ∧ pingQualifies ty = true ∧
      masterDiffers s m = true := by
  cases h with
  | adopt src m ty sid hi hforeign hq hd => exact .inr ⟨src, m, ty, sid, hi, hforeign, hq, hd⟩
  | tick =>
    obtain ⟨_, _, _, _, _, _, hframe⟩ := tickPhases_frame s
    exact .inl (by rw [hframe])
  | pair p r =>
    obtain ⟨_, _, hframe⟩ := pair_frame p r s
    exact .inl (by rw [hframe])
  | _ => exact .inl rfl

/-- Settles O19: the session is kept, or a ping is adopted, with the outcome that O45 gives. -/
theorem sessionChangesOnlyByAdoption : Obligations.SessionChangesOnlyByAdoption := by
  intro i s t hexec
  have hsess : t.sess = s.sess ∨ ∃ src m ty sid, i = .rxPing src m ty sid ∧ Foreign s src ∧
      pingQualifies ty = true ∧ masterDiffers s m = true := by
    cases performs_of_exec hexec with
    | micro _ hact => exact hact.sess_eq
    | command _ hact => exact hact.sess_eq
  refine hsess.imp_right ?_
  rintro ⟨src, m, ty, sid, rfl, hforeign, hq, hd⟩
  rw [pingQualifies_iff] at hq
  rw [masterDiffers_iff] at hd
  obtain ⟨hadopt, -⟩ := pingAdoptsNewMaster src m ty sid s hforeign
  cases (hadopt hq hd).symm.trans hexec
  exact ⟨src, m, ty, sid, rfl, hforeign, hq, hd, rfl, rfl⟩

/-! ### The capture flags -/

/-- An accepted trigger sets `captureRunning` and leaves `dataReady` (45_scheduler.md R231). -/
theorem startCapture_flags (c : Config) (kind : Boundary) (sc : Scheduler) :
    (startCapture c kind sc).captureRunning = true ∧ (startCapture c kind sc).dataReady = sc.dataReady := by
  rcases startCapture_cases c kind sc with ⟨-, -, h⟩ | ⟨-, -, h⟩ | ⟨-, h⟩ <;> rw [h] <;> exact ⟨rfl, rfl⟩

/-- The rows of the handshake table (45_scheduler.md R240). -/
theorem Acts.flags_cases {i : Instr} {s u : State} (h : Acts i s u) :
    flags u = flags s ∨
    ((∃ kind, i = .trigger kind) ∧ s.booted = true ∧ flags s = (false, false) ∧ flags u = (true, false)) ∨
    (i = .capdone ∧ s.booted = true ∧ s.sched.captureRunning = true ∧ flags u = (false, true)) ∨
    (i = .tick ∧ s.booted = true ∧ s.sched.dataReady = true ∧ flags u = (s.sched.captureRunning, false)) := by
  cases h with
  | arm kind hi hb hidle =>
    obtain ⟨hrun, hready⟩ := startCapture_flags s.config kind s.sched
    refine .inr (.inl ⟨⟨kind, hi⟩, hb, (captureIdle_iff_flags s).mp hidle, ?_⟩)
    rw [flags, armCapture_sched, hrun, hready, ((captureIdle_iff s.sched).mp hidle).2]
  | handOver hi hb hrun => exact .inr (.inr (.inl ⟨hi, hb, hrun, rfl⟩))
  | tick hi hb =>
    obtain ⟨_, _, _, _, _, _, hframe⟩ := tickPhases_frame s
    rw [hframe]
    cases hready : s.sched.dataReady with
    | false => exact .inl (by simp [flags, hready])
    | true => exact .inr (.inr (.inr ⟨hi, hb, rfl, rfl⟩))
  | pair p r =>
    obtain ⟨_, _, hframe⟩ := pair_frame p r s
    exact .inl (by rw [hframe]; rfl)
  | _ => exact .inl rfl

/-- Settles O31: the flags move by the effect of the operation; the result record leaves them. -/
theorem captureHandshake : Obligations.CaptureHandshake := by
  intro i s t hexec
  cases performs_of_exec hexec with
  | micro _ hact => exact hact.flags_cases
  | command _ hact => exact hact.flags_cases

/-! ### The reported states -/

/-- Accumulation leaves the reported state of every port (44_occupancy.md R212). -/
theorem occacc_reportedState (p q : PortIdx) (s : State) :
    reportedState (occacc p s).ports[q] = reportedState s.ports[q] := by
  rw [occacc, setPort_get]
  split
  case isTrue hpq =>
    subst hpq
    exact (accumulate_keeps ..).2
  case isFalse => rfl

/-- Phase T1 leaves the reported state of every port. -/
theorem consumeCapture_reportedState (p : PortIdx) (s : State) :
    reportedState (consumeCapture s).ports[p] = reportedState s.ports[p] := by
  rcases consumeCapture_cases s with ⟨-, h⟩ | ⟨-, -, h⟩ | ⟨-, -, h⟩ <;> rw [h]
  · obtain ⟨_, _, hframe⟩ := pair_frame s.sched.capPort
      (extractBuffer s s.ports[s.sched.capPort].voltageOffset.toNat s.thr.thresholdVoltage.toNat) s
    rw [hframe]
  · exact occacc_reportedState s.sched.capPort p s

/-- The announcement of port `p` that its reported state is now `state` (R108, R111). -/
def announcement (cfg : ModuleConfig) (p : PortIdx) (state : Bool) : Output :=
  .tx (.port6 cfg.networkId cfg.moduleAddress (BitVec.ofNat 8 p.val) 0x01 (if state then 0x0001 else 0x0000))

theorem mem_portList : ∀ p : PortIdx, p ∈ portList := by decide

/-- A reported state that `OCCDEB` changes is announced (44_occupancy.md R214, R216). -/
theorem announcement_mem_of_occdeb {s : State} {p : PortIdx}
    (hne : reportedState (occdeb s).ports[p] ≠ reportedState s.ports[p]) :
    announcement s.cfg p (reportedState (occdeb s).ports[p]) ∈ portList.flatMap (announceRecords s) := by
  have hport : (occdeb s).ports[p] = announcePort s.cfg s.inp.now s.ports[p] := by simp
  rw [hport] at hne ⊢
  rcases announcePort_cases s.cfg s.inp.now s.ports[p] with ⟨hdue, -, h⟩ | ⟨-, h⟩
  · rw [flatMap_announceRecords, h]
    exact List.mem_map.mpr ⟨p, List.mem_filter.mpr ⟨mem_portList p, hdue⟩, rfl⟩
  · exact absurd (congrArg reportedState h) hne

/-- The ports after the six phases are those after `OCCDEB`. -/
theorem tickPhases_ports (s : State) : (tickPhases s).ports = (occdeb (slotexp (consumeCapture s))).ports := by
  obtain ⟨_, hexpire⟩ := expireProg_frame (addrreport (occdeb (slotexp (consumeCapture s))))
  obtain ⟨_, _, halive⟩ := keepAlive_frame (expireProg (addrreport (occdeb (slotexp (consumeCapture s)))))
  rw [tickPhases, halive, hexpire, addrreport_ports]

/-- A reported state that a `TICK` changes is announced, with the network id and address the module had. -/
theorem announcement_mem_of_tickPhases {s : State} {p : PortIdx}
    (hne : reportedState (tickPhases s).ports[p] ≠ reportedState s.ports[p]) :
    ∃ recs, (tickPhases s).out = s.out ++ recs ∧
      announcement s.cfg p (reportedState (tickPhases s).ports[p]) ∈ recs := by
  obtain ⟨t, ping, hout, -⟩ := tickPhases_out s
  have hcfg : (slotexp (consumeCapture s)).cfg = s.cfg := (keepsConfiguration_consumeCapture s).cfg_eq
  have hreported : reportedState (slotexp (consumeCapture s)).ports[p] = reportedState s.ports[p] :=
    consumeCapture_reportedState p s
  rw [tickPhases_ports, ← hreported] at hne
  have hmem := announcement_mem_of_occdeb hne
  rw [hcfg, ← tickPhases_ports] at hmem
  refine ⟨_, by rw [hout, List.append_assoc, List.append_assoc], ?_⟩
  exact List.mem_append_left _ hmem

/-- Only `OCCDEB`, by itself or in `TICK`, changes a reported state, and it announces the change (44_occupancy.md R216). -/
theorem Acts.announcement_mem {i : Instr} {s u : State} {p : PortIdx} (h : Acts i s u)
    (hne : reportedState u.ports[p] ≠ reportedState s.ports[p]) :
    (i = .occdeb ∨ i = .tick) ∧
      ∃ recs, u.out = s.out ++ recs ∧ announcement s.cfg p (reportedState u.ports[p]) ∈ recs := by
  cases h with
  | tick hi => exact ⟨.inr hi, announcement_mem_of_tickPhases hne⟩
  | occdeb hi => exact ⟨.inl hi, _, rfl, announcement_mem_of_occdeb hne⟩
  | occacc q => exact absurd (occacc_reportedState q p s) hne
  | pair q r =>
    obtain ⟨_, _, hframe⟩ := pair_frame q r s
    exact absurd (by rw [hframe]) hne
  | load | initialise => simp [reportedState] at hne
  | _ => exact absurd rfl hne

/-- Settles O41: the effect announces the change, and a result record may follow. -/
theorem reportedStateChangesOnlyWithAnnouncement : Obligations.ReportedStateChangesOnlyWithAnnouncement := by
  intro i s t p hexec hne
  cases performs_of_exec hexec with
  | micro _ hact => exact hact.announcement_mem hne
  | command _ hact st v =>
    obtain ⟨hi, recs, hout, hmem⟩ := hact.announcement_mem hne
    refine ⟨hi, recs ++ [result st v], ?_, List.mem_append_left _ hmem⟩
    rw [finish_out, hout, List.append_assoc]

end Sys2Proof.Machine
end

section
/-! PROOF. BUF while a capture is in flight (45_scheduler.md R241(b)). Of the commands only `DEMOD`, `EXTRACT` and `TICK` read
BUF: the first two are IGNORED then, and the `TICK` has no finished buffer to analyse. -/

namespace Sys2Proof.Machine

/-- The same state with another BUF. -/
def State.withBuf (s : State) (m : Memory) : State := { s with buf := m }

@[simp] theorem withBuf_config (s : State) (m : Memory) : (s.withBuf m).config = s.config := rfl

@[simp] theorem withBuf_cfg (s : State) (m : Memory) : (s.withBuf m).cfg = s.cfg := rfl

/-- A choice that BUF takes no part in, between two states with another BUF. -/
theorem ite_withBuf {c : Prop} [Decidable c] {t u t' u' : State} {m : Memory} (ht : t' = t.withBuf m)
    (hu : u' = u.withBuf m) : (if c then t' else u') = (if c then t else u).withBuf m := by
  subst ht hu
  split <;> rfl

theorem bootUp_withBuf (s : State) (m : Memory) : bootUp (s.withBuf m) = (bootUp s).withBuf m :=
  ite_withBuf rfl rfl

theorem expireProg_withBuf (s : State) (m : Memory) :
    expireProg (s.withBuf m) = (expireProg s).withBuf m := ite_withBuf rfl rfl

theorem keepAlive_withBuf (s : State) (m : Memory) :
    keepAlive (s.withBuf m) = (keepAlive s).withBuf m := ite_withBuf rfl rfl

/-- With no finished buffer phase T1 does nothing, and the phases after it do not read BUF (45_scheduler.md R238). -/
theorem tickPhases_withBuf {s : State} (m : Memory) (hready : s.sched.dataReady = false) :
    tickPhases (s.withBuf m) = (tickPhases s).withBuf m := by
  have hidle (t : State) (ht : t.sched.dataReady = false) : consumeCapture t = t := if_neg (ne_true_of_eq_false ht)
  rw [tickPhases, tickPhases, hidle s hready, hidle (s.withBuf m) hready, ← keepAlive_withBuf,
    ← expireProg_withBuf]
  rfl

theorem withPrologue_withBuf (src : Half) {handler : State → State} {s : State} {m : Memory}
    (hhandler : handler (s.withBuf m) = (handler s).withBuf m) :
    withPrologue src handler (s.withBuf m) = (withPrologue src handler s).withBuf m :=
  ite_withBuf rfl (ite_withBuf rfl hhandler)

theorem handleInfoGet_withBuf (tag : Half) (s : State) (m : Memory) :
    handleInfoGet tag (s.withBuf m) = (handleInfoGet tag s).withBuf m := by
  simp only [handleInfoGet, withBuf_config, withBuf_cfg]
  split <;> rfl

theorem handleCfgGet_withBuf (tag : BitVec 32) (s : State) (m : Memory) :
    handleCfgGet tag (s.withBuf m) = (handleCfgGet tag s).withBuf m := by
  unfold handleCfgGet
  split <;> rfl

theorem handleCfgSet_withBuf (tag : BitVec 32) (value : Half) (s : State) (m : Memory) :
    handleCfgSet tag value (s.withBuf m) = (handleCfgSet tag value s).withBuf m := by
  unfold handleCfgSet
  split <;> rfl

theorem handleAccdataGet_withBuf (id : Half) (port type : Byte) (s : State) (m : Memory) :
    handleAccdataGet id port type (s.withBuf m) = (handleAccdataGet id port type s).withBuf m := by
  refine ite_withBuf ?_ rfl
  split <;> rfl

theorem handlePort6Get_withBuf (id : Half) (port type : Byte) (s : State) (m : Memory) :
    handlePort6Get id port type (s.withBuf m) = (handlePort6Get id port type s).withBuf m := by
  refine ite_withBuf ?_ rfl
  split <;> rfl

theorem exec_enc48_withBuf (sym : Symbol) (s : State) (m : Memory) :
    ∃ t, exec (.enc48 sym) s = .next t ∧ exec (.enc48 sym) (s.withBuf m) = .next (t.withBuf m) := by
  cases h : encRom s.config sym with
  | none => exact ⟨_, exec_enc48_of_encRom_none h, exec_enc48_of_encRom_none h⟩
  | some b => exact ⟨_, exec_enc48_of_encRom_some h, exec_enc48_of_encRom_some h⟩

/-- A command while a capture is in flight does the same with any other BUF (R241(b)). -/
theorem exec_withBuf {i : Instr} {s : State} (m : Memory) (hi : isPortCommand i = true)
    (hrun : s.sched.captureRunning = true) (hready : s.sched.dataReady = false) :
    ∃ t, exec i s = .next t ∧ exec i (s.withBuf m) = .next (t.withBuf m) := by
  have hbusy : captureIdle s.sched = false := (captureIdle_eq_false_iff s.sched).mpr (.inl hrun)
  cases i with
  | pair | slotupd | slotexp | addrreport | occacc | occdeb | progexp | keepalive | collision => cases hi
  | demod off thr => exact ⟨_, exec_demod_of_busy off thr hbusy, exec_demod_of_busy off thr hbusy⟩
  | extract off thr => exact ⟨_, exec_extract_of_busy off thr hbusy, exec_extract_of_busy off thr hbusy⟩
  | enc48 sym => exact exec_enc48_withBuf sym s m
  | trigger | capdone | progopen => exact ⟨_, rfl, congrArg Host.Outcome.next (ite_withBuf rfl rfl)⟩
  | tick =>
    exact ⟨_, rfl, congrArg Host.Outcome.next (ite_withBuf rfl
      (congrArg (fun t : State => t.finish .done .none) (tickPhases_withBuf m hready)))⟩
  | boot =>
    exact ⟨_, rfl, congrArg Host.Outcome.next (ite_withBuf rfl
      (congrArg (fun t : State => t.finish .done .none) (bootUp_withBuf s m)))⟩
  | rxPingreq | rxOther => exact ⟨_, rfl, congrArg Host.Outcome.next (withPrologue_withBuf _ rfl)⟩
  | rxPing | rxSetaddr => exact ⟨_, rfl, congrArg Host.Outcome.next (withPrologue_withBuf _ (ite_withBuf rfl rfl))⟩
  | rxInfoGet => exact ⟨_, rfl, congrArg Host.Outcome.next (withPrologue_withBuf _ (handleInfoGet_withBuf ..))⟩
  | rxCfgGet => exact ⟨_, rfl, congrArg Host.Outcome.next (withPrologue_withBuf _ (handleCfgGet_withBuf ..))⟩
  | rxCfgSet => exact ⟨_, rfl, congrArg Host.Outcome.next (withPrologue_withBuf _ (handleCfgSet_withBuf ..))⟩
  | rxAccdataGet => exact ⟨_, rfl, congrArg Host.Outcome.next (withPrologue_withBuf _ (handleAccdataGet_withBuf ..))⟩
  | rxPort6Get => exact ⟨_, rfl, congrArg Host.Outcome.next (withPrologue_withBuf _ (handlePort6Get_withBuf ..))⟩
  | dec84 | reserved00 | reserved05 | reserved06 | reserved07 | reserved0D | reserved0E | reserved0F | reserved19
  | reserved1A | reserved1B | reserved1C | reserved1D | reserved1E | reserved1F => exact ⟨_, rfl, rfl⟩

/-- Settles O15: the state the command answers from the other BUF is the one it answers, with that BUF. -/
theorem bufferUnreadWhileCapturing : Obligations.BufferUnreadWhileCapturing := by
  intro i s t m hi hrun hready hexec
  obtain ⟨u, hu, hother⟩ := exec_withBuf m hi hrun hready
  cases hexec.symm.trans hu
  exact hother

end Sys2Proof.Machine
end

section
/-! PROOF. The laws of the codec (41_codec.md R144). The valid bytes are the codewords: of these there are 19, all with four
1 bits, each the codeword of one symbol. -/

namespace Sys2Proof.Machine

/-- A byte of the code table is the entry of some symbol (20_memory.md R62). -/
theorem mem_code_iff (c : Config) (b : Byte) : b ∈ c.code.toList ↔ ∃ k : Fin 19, c.code[k] = b := by
  rw [Vector.mem_toList_iff, Vector.mem_iff_getElem]
  exact ⟨fun ⟨k, hk, h⟩ => ⟨⟨k, hk⟩, h⟩, fun ⟨k, h⟩ => ⟨k.val, k.isLt, h⟩⟩

/-- A symbol below 19 is no INVALID (R115). -/
theorem ofNat_ne_symInvalid (k : Fin 19) : BitVec.ofNat 5 k.val ≠ symInvalid := by
  revert k
  decide

/-- A byte is valid exactly when it is a codeword (R144 b, c). -/
theorem decRom_ne_invalid_iff {c : Config} (hwf : c.wf) (b : Byte) : decRom c b ≠ 31 ↔ b ∈ c.code.toList := by
  rw [mem_code_iff]
  constructor
  · intro hvalid
    by_contra hnone
    exact hvalid (decRom_of_not_codeword (not_exists.mp hnone))
  · rintro ⟨k, rfl⟩
    rw [decRom_code hwf]
    exact ofNat_ne_symInvalid k

/-- The codeword of symbol `k` in the forward table (20_memory.md R62). -/
theorem encRom_ofNat (c : Config) (k : Fin 19) : encRom c (BitVec.ofNat 5 k.val) = some c.code[k] := by
  have hk : (BitVec.ofNat 5 k.val).toNat = k.val := by
    rw [BitVec.toNat_ofNat]
    omega
  rw [encRom_of_lt c _ (by omega)]
  simp only [hk, Fin.getElem_fin]

/-- Every byte once. -/
def allBytes : List Byte := (List.range 256).map (BitVec.ofNat 8)

theorem nodup_allBytes : allBytes.Nodup := by
  refine (List.nodup_map_iff_inj_on List.nodup_range).mpr fun m hm n hn h => ?_
  have htoNat := congrArg BitVec.toNat h
  rw [List.mem_range] at hm hn
  rwa [BitVec.toNat_ofNat, BitVec.toNat_ofNat, Nat.mod_eq_of_lt hm, Nat.mod_eq_of_lt hn] at htoNat

theorem mem_allBytes (b : Byte) : b ∈ allBytes :=
  List.mem_map.mpr ⟨b.toNat, List.mem_range.mpr b.isLt, by rw [BitVec.ofNat_toNat, BitVec.setWidth_eq]⟩

/-- A list without repetition holds as many of all bytes as it is long. -/
theorem countP_allBytes {l : List Byte} (hl : l.Nodup) : (allBytes.countP fun b => decide (b ∈ l)) = l.length := by
  rw [List.countP_eq_length_filter]
  refine ((List.perm_ext_iff_of_nodup (nodup_allBytes.filter _) hl).mpr fun b => ?_).length_eq
  simp [mem_allBytes]

/-- Settles O23: the five laws, from the codewords being the valid bytes. -/
theorem codecLaws : Obligations.CodecLaws := by
  intro c hwf
  have hnodup : c.code.toList.Nodup := by
    obtain ⟨-, -, -, -, -, -, -, hnodup, -⟩ := hwf
    exact hnodup
  have hbalanced : ∀ b ∈ c.code.toList, popcount b = 4 := by
    obtain ⟨-, -, -, -, -, -, hbalanced, -⟩ := hwf
    exact hbalanced
  have hvalid := decRom_ne_invalid_iff hwf
  refine ⟨fun s hs => ?_, fun b hnone => ?_, fun b hb => ?_, ?_, fun b hb => ?_⟩
  · have hlt : s.toNat < 19 := by omega
    refine ⟨_, encRom_of_lt c s hlt, (decRom_code hwf ⟨s.toNat, hlt⟩).trans ?_⟩
    rw [BitVec.ofNat_toNat, BitVec.setWidth_eq]
  · refine decRom_of_not_codeword fun k hk => hnone (BitVec.ofNat 5 k.val) ?_
    rw [encRom_ofNat, hk]
  · obtain ⟨k, rfl⟩ := (mem_code_iff c b).mp ((hvalid b).mp hb)
    rw [decRom_code hwf, encRom_ofNat]
  · calc ((List.range 256).countP fun n => decide (decRom c (BitVec.ofNat 8 n) ≠ 31))
        = allBytes.countP fun b => decide (decRom c b ≠ 31) := by rw [allBytes, List.countP_map]; rfl
      _ = allBytes.countP fun b => decide (b ∈ c.code.toList) := by simp only [hvalid]
      _ = 19 := by rw [countP_allBytes hnodup, Vector.length_toList]
  · by_contra hne
    exact hb (hbalanced b ((hvalid b).mp hne))

end Sys2Proof.Machine
end

section
/-! PROOF. The frames of a scan (42_extractor.md R167, R169). One induction on the frames left to take gives all of it: a
frame taken from `pos` starts after `pos`, fits the window, and the rest comes from 39 ticks after its start. -/

namespace Sys2Proof.Machine

/-- What makes a frame well formed (R164, R169(b)). -/
theorem frame_wf_iff (f : Frame) :
    f.wf = true ↔ 1 ≤ f.start ∧ f.stop = f.start + 40 ∧ (f.sym.toNat ≤ 18 ∨ f.sym = 31) := by
  simp [Frame.wf, and_assoc]

/-- A frame of a window of bits: it starts after `pos` at a 1-to-0 transition and its last sample point is inside the
window (R169(c), (d)). -/
structure FrameFits (bits : List Bool) (pos : Nat) (f : Frame) : Prop where
  after : pos < f.start
  inside : f.start + 34 < bits.length
  before_start : bits[f.start - 1]? = some true
  at_start : bits[f.start]? = some false
  wf : f.wf = true

/-- The frame that the scan takes at the start it found (R157, R164). -/
theorem frameFits_frameAt (c : Config) {bits : List Bool} {pos i : Nat} (hstart : findStart bits pos = some i)
    (hfit : i + 1 + 34 < bits.length) : FrameFits bits pos (frameAt c bits (i + 1)) := by
  obtain ⟨hpos, ⟨hone, hzero⟩, -⟩ := (findStart_eq_some bits pos i).mp hstart
  exact ⟨Nat.lt_succ_of_le hpos, hfit, hone, hzero,
    (frame_wf_iff _).mpr ⟨Nat.le_add_left 1 i, rfl, decRom_range c (frameCode bits (i + 1))⟩⟩

theorem FrameFits.mono {bits : List Bool} {pos pos' : Nat} {f : Frame} (h : FrameFits bits pos f) (hle : pos' ≤ pos) :
    FrameFits bits pos' f :=
  { h with after := hle.trans_lt h.after }

/-- Every frame of the scan fits (R169). -/
theorem scanFrames_fit (c : Config) (bits : List Bool) (samples : List Nat) (off fuel pos : Nat) :
    ∀ f ∈ (scanFrames c bits samples off fuel pos).frames, FrameFits bits pos f := by
  induction fuel generalizing pos with
  | zero => exact fun _ hf => absurd hf List.not_mem_nil
  | succ fuel ih =>
    rcases scanFrames_cases c bits samples off (fuel + 1) pos with ⟨h, -⟩ | ⟨fuel', i, hfuel, hstart, hfit, h⟩ <;> rw [h]
    · exact fun _ hf => absurd hf List.not_mem_nil
    · obtain rfl : fuel = fuel' := Nat.succ.inj hfuel
      have hfirst := frameFits_frameAt c hstart hfit
      have hpos : pos < i + 1 := hfirst.after
      intro f hf
      rcases List.mem_cons.mp hf with rfl | hf
      · exact hfirst
      · exact (ih (i + 1 + 39) f hf).mono (by omega)

/-- A frame in front of frames that ascend and start after its end (R169(b)). -/
theorem framesAscend_cons {f : Frame} {rest : List Frame} (hrest : framesAscend rest = true)
    (hle : ∀ g ∈ rest, f.stop ≤ g.start) : framesAscend (f :: rest) = true := by
  cases rest with
  | nil => rfl
  | cons g rest =>
    rw [framesAscend, hrest, Bool.and_true]
    exact decide_eq_true (hle g List.mem_cons_self)

/-- The frames of the scan ascend: the rest of a frame starts after its end, 40 ticks after its start (R164, R169(b)). -/
theorem scanFrames_ascend (c : Config) (bits : List Bool) (samples : List Nat) (off fuel pos : Nat) :
    framesAscend (scanFrames c bits samples off fuel pos).frames = true := by
  induction fuel generalizing pos with
  | zero => rfl
  | succ fuel ih =>
    rcases scanFrames_cases c bits samples off (fuel + 1) pos with ⟨h, -⟩ | ⟨fuel', i, hfuel, -, -, h⟩ <;> rw [h]
    · rfl
    · obtain rfl : fuel = fuel' := Nat.succ.inj hfuel
      exact framesAscend_cons (ih _) fun g hg => (scanFrames_fit _ _ _ _ _ _ g hg).after

/-- `n` frames need `40 * n - 4` ticks from `pos` on (R169(a)). -/
theorem scanFrames_room (c : Config) (bits : List Bool) (samples : List Nat) (off fuel pos : Nat) :
    (scanFrames c bits samples off fuel pos).frames = [] ∨
    pos + 40 * (scanFrames c bits samples off fuel pos).frames.length ≤ bits.length + 4 := by
  induction fuel generalizing pos with
  | zero => exact .inl rfl
  | succ fuel ih =>
    rcases scanFrames_cases c bits samples off (fuel + 1) pos with ⟨h, -⟩ | ⟨fuel', i, hfuel, hstart, hfit, h⟩ <;> rw [h]
    · exact .inl rfl
    · obtain rfl : fuel = fuel' := Nat.succ.inj hfuel
      have hpos : pos < i + 1 := (frameFits_frameAt c hstart hfit).after
      refine .inr ?_
      simp only [prependFrame, List.length_cons]
      rcases ih (i + 1 + 39) with hnil | hroom
      · rw [hnil, List.length_nil]
        omega
      · omega

/-- Each frame moves the direction count by at most 8 (R167). -/
theorem scanFrames_directionCount (c : Config) (bits : List Bool) (samples : List Nat) (off fuel pos : Nat) :
    -(8 * fuel : Int) ≤ (scanFrames c bits samples off fuel pos).directionCount ∧
    (scanFrames c bits samples off fuel pos).directionCount ≤ 8 * fuel := by
  induction fuel generalizing pos with
  | zero => exact ⟨le_rfl, le_rfl⟩
  | succ fuel ih =>
    rcases scanFrames_cases c bits samples off (fuel + 1) pos with ⟨h, -⟩ | ⟨fuel', i, hfuel, -, -, h⟩ <;> rw [h]
    · simp only
      omega
    · obtain rfl : fuel = fuel' := Nat.succ.inj hfuel
      have hrest := ih (i + 1 + 39)
      have hframe := frameDirection_range bits samples off (i + 1)
      simp only [prependFrame]
      omega

/-- Settles O25: the properties of the scan with 8 frames to take from tick 0. -/
theorem extractedFramesFitTheWindow : Obligations.ExtractedFramesFitTheWindow := by
  rintro c bits samples off r rfl
  have hfit : ∀ f ∈ (extractWindow c bits samples off).frames, FrameFits bits 0 f :=
    scanFrames_fit c bits samples off 8 0
  have hlen : (extractWindow c bits samples off).n ≤ 8 := scanFrames_length c bits samples off 8 0
  have hroom : (extractWindow c bits samples off).n ≤ (bits.length + 4) / 40 := by
    rcases scanFrames_room c bits samples off 8 0 with hnil | hroom
    · rw [FrameRecord.n, extractWindow, hnil]
      exact Nat.zero_le _
    · rw [FrameRecord.n, extractWindow]
      omega
  obtain ⟨hlow, hhigh⟩ : -64 ≤ (extractWindow c bits samples off).directionCount ∧
      (extractWindow c bits samples off).directionCount ≤ 64 := scanFrames_directionCount c bits samples off 8 0
  have hwf : (extractWindow c bits samples off).wf = true := by
    rw [FrameRecord.wf, decide_eq_true hlen, decide_eq_true ⟨hlow, hhigh⟩,
      List.all_eq_true.mpr fun f hf => (hfit f hf).wf]
    exact scanFrames_ascend c bits samples off 8 0
  refine ⟨hlen, hroom, hlow, hhigh, hwf, fun f hf => ?_⟩
  have hf := hfit f hf
  exact ⟨Nat.le_sub_one_of_lt hf.inside, hf.before_start, hf.at_start⟩

end Sys2Proof.Machine
end

section
/-! PROOF. The accumulator of a port (44_occupancy.md R211): one sample is a step of the rule, a capture the run of its
samples. -/

namespace Sys2Proof.Machine
open Sys2Proof.Claims

/-- A port is classified Occupied when the floor of the average is above `trackSetVoltage` (R211, R213). -/
theorem occupied_iff (c : Config) (trackSet sum : Nat) : occupied c trackSet sum = true ↔ sum / c.occN > trackSet :=
  decide_eq_true_iff

/-- One sample of the model is one step of the rule (R211). -/
theorem occStep_accumulateSample (c : Config) (trackSet : Nat) (now : Millis) (pr : PortRegs) (smp : Nat) :
    OccStep c trackSet now pr smp (accumulateSample c trackSet now pr smp) := by
  rcases accumulateSample_cases c trackSet now pr smp with ⟨hcount, h⟩ | ⟨hcount, hocc, h⟩ | ⟨hcount, hocc, h⟩ <;>
    rw [absdiff_eq_deviation] at *
  · exact ⟨fun _ => h, fun hfull => absurd hfull hcount⟩
  · exact ⟨fun hmore => absurd hcount hmore, fun _ => ⟨_, occupied_iff .., fun _ => h, fun hne => absurd hocc hne⟩⟩
  · refine ⟨fun hmore => absurd hcount hmore, fun _ => ⟨_, occupied_iff .., fun heq => ?_, fun _ => ?_⟩⟩
    · exact absurd (hocc.symm.trans heq) (Bool.not_ne_self _)
    · rw [hocc, h]

/-- The samples of a capture are a run of the rule (R211). -/
theorem occRun_foldl (c : Config) (trackSet : Nat) (now : Millis) (l : List Nat) (pr : PortRegs) :
    OccRun c trackSet now l pr (l.foldl (accumulateSample c trackSet now) pr) := by
  induction l generalizing pr with
  | nil => rfl
  | cons smp rest ih => exact ⟨_, occStep_accumulateSample c trackSet now pr smp, ih _⟩

/-- Settles O39: the capture is run on the registers of the port, and only they are written. -/
theorem occaccRule : Obligations.OccaccRule :=
  fun _ _ => ⟨_, occRun_foldl .., rfl⟩

end Sys2Proof.Machine
end

section
/-! PROOF. The invariant of the CORE (10_state.md, 44_occupancy.md R216, 45_scheduler.md R240, 46_responder.md R271). One rule
per register bank says what a new value of it must meet for the invariant to stand; each effect of an operation then has
one obligation for each bank it writes, and each event of the host likewise. -/

namespace Sys2Proof.Machine

/-! ### The slots of one port -/

/-- What the invariant asks of the slots of one port (R24, R25). -/
def TableInv (sl : Vector Slot 4) : Prop := (∀ k : SlotIdx, SlotInv sl[k]) ∧ SlotsDistinct sl

/-- Writing a slot keeps the table when no other slot has the address written. -/
theorem TableInv.set {sl : Vector Slot 4} (h : TableInv sl) {k : SlotIdx} {x : Slot} (hx : SlotInv x)
    (hnew : ∀ j : SlotIdx, j ≠ k → sl[j].address ≠ x.address) : TableInv (sl.set k.val x k.isLt) := by
  obtain ⟨hslot, hdistinct⟩ := h
  have hget (j : SlotIdx) : (sl.set k.val x k.isLt)[j] = if j = k then x else sl[j] := by
    simp [Vector.getElem_set, Fin.ext_iff, eq_comm]
  constructor
  · intro j
    rw [hget]
    split
    · exact hx
    · exact hslot j
  · intro j j' hne
    rw [hget, hget]
    by_cases hj : j = k
    · rw [if_pos hj, if_neg (hj ▸ hne.symm)]
      exact fun _ => (hnew j' (hj ▸ hne.symm)).symm
    · rw [if_neg hj]
      by_cases hj' : j' = k
      · rw [if_pos hj']
        exact fun _ => hnew j hj
      · rw [if_neg hj']
        exact hdistinct j j' hne

/-- A sweep keeps the table when it leaves each address or empties the slot. -/
theorem TableInv.sweep {sl : Vector Slot 4} (h : TableInv sl) {f : Slot → Slot} (hf : ∀ x, SlotInv x → SlotInv (f x))
    (haddr : ∀ x, (f x).address = x.address ∨ (f x).address = 0) : TableInv (Vector.ofFn fun k => f sl[k]) := by
  obtain ⟨hslot, hdistinct⟩ := h
  have hget (k : SlotIdx) : (Vector.ofFn fun k : SlotIdx => f sl[k])[k] = f sl[k] := Vector.getElem_ofFn k.isLt
  constructor
  · intro k
    rw [hget]
    exact hf _ (hslot k)
  · intro j k hne
    rw [hget, hget]
    rcases haddr sl[j] with hj | hj <;> rw [hj]
    · rcases haddr sl[k] with hk | hk <;> rw [hk]
      · exact hdistinct j k hne
      · exact id
    · exact fun hzero => absurd rfl hzero

/-- A sighting keeps the table: the address is refreshed in its one slot, or new (43_assembler.md R190, R191). -/
theorem TableInv.updateSlots {sl : Vector Slot 4} (h : TableInv sl) {addr : BitVec 14} {dir : BitVec 2} (now : Millis)
    (h0 : addr ≠ 0) (h255 : addr ≠ 255) (hdir : dir ≠ 3) : TableInv (updateSlots sl addr dir now) := by
  rcases updateSlots_cases sl addr dir now with ⟨k, hk, -, heq⟩ | ⟨hnew, k, -, -, heq⟩ | ⟨-, -, heq⟩ <;> rw [heq]
  · rw [refreshSlot_eq, hk]
    refine h.set ⟨hdir, h255, fun he => absurd he h0⟩ fun j hj => ?_
    have hne := h.2 k j (Ne.symm hj) (hk ▸ h0)
    exact hk ▸ hne.symm
  · exact h.set ⟨hdir, h255, fun he => absurd he h0⟩ fun j _ => hnew j
  · exact h

/-- Expiry leaves a slot or empties it (43_assembler.md R193). -/
theorem expireSlot_cases (c : Config) (now : Millis) (x : Slot) :
    expireSlot c now x = x ∨ expireSlot c now x = { x with address := 0, direction := 0, reported := false } := by
  unfold expireSlot
  split
  · exact .inr rfl
  · exact .inl rfl

theorem TableInv.expire {sl : Vector Slot 4} (h : TableInv sl) (c : Config) (now : Millis) :
    TableInv (Vector.ofFn fun k => expireSlot c now sl[k]) := by
  refine h.sweep (fun x hx => ?_) fun x => ?_
  · rcases expireSlot_cases c now x with heq | heq <;> rw [heq]
    · exact hx
    · exact ⟨(by decide : (0 : BitVec 2) ≠ 3), (by decide : (0 : BitVec 14) ≠ 255), fun _ => rfl⟩
  · rcases expireSlot_cases c now x with heq | heq <;> rw [heq]
    · exact .inl rfl
    · exact .inr rfl

theorem TableInv.report {sl : Vector Slot 4} (h : TableInv sl) : TableInv (reportedSlots sl) := by
  rw [reportedSlots_eq]
  exact h.sweep (f := fun x => { x with reported := true }) (fun _ hx => hx) fun _ => .inl rfl

/-! ### The registers of one port -/

/-- One sample keeps the count below `OCC_N`, and the sum within that many deviations (44_occupancy.md R213). -/
theorem portInv_accumulateSample {c : Config} (trackSet : Nat) (now : Millis) {pr : PortRegs} {smp : Nat}
    (hocc : 1 ≤ c.occN) (hsmp : smp ≤ 65535) (h : PortInv c pr) :
    PortInv c (accumulateSample c trackSet now pr smp) := by
  obtain ⟨hcount, hsum⟩ := h
  have hdev : absdiff smp pr.voltageOffset.toNat ≤ 65535 := absdiff_le _ _ hsmp (Nat.le_of_lt_succ pr.voltageOffset.isLt)
  rcases accumulateSample_cases c trackSet now pr smp with ⟨hmore, heq⟩ | ⟨-, -, heq⟩ | ⟨-, -, heq⟩ <;> rw [heq]
  · constructor <;> simp only <;> omega
  · exact ⟨hocc, Nat.zero_le _⟩
  · exact ⟨hocc, Nat.zero_le _⟩

/-- A whole capture keeps them. -/
theorem portInv_foldl {c : Config} (trackSet : Nat) (now : Millis) (hocc : 1 ≤ c.occN) {l : List Nat}
    (hl : ∀ smp ∈ l, smp ≤ 65535) {pr : PortRegs} (h : PortInv c pr) :
    PortInv c (l.foldl (accumulateSample c trackSet now) pr) := by
  induction l generalizing pr with
  | nil => exact h
  | cons smp rest ih =>
    rw [List.forall_mem_cons] at hl
    exact ih hl.2 (portInv_accumulateSample trackSet now hocc hl.1 h)

/-- The samples of a window fit 16 bits (20_memory.md R61). -/
theorem bufWindow_le (s : State) (len : Nat) : ∀ smp ∈ bufWindow s len, smp ≤ 65535 := by
  intro smp hsmp
  obtain ⟨i, -, rfl⟩ := List.mem_map.mp hsmp
  exact bufRead_le s i

theorem portInv_announcePort {c : Config} {cfg : ModuleConfig} {now : Millis} {pr : PortRegs} (h : PortInv c pr) :
    PortInv c (announcePort cfg now pr) := by
  rcases announcePort_cases cfg now pr with ⟨-, -, heq⟩ | ⟨-, heq⟩ <;> rw [heq] <;> exact h

/-! ### The configuration -/

/-- The network id that `BOOT` loads or draws is no sentinel (70_reset_and_hazards.md R352, R354). -/
theorem bootConfig_networkId {c : Config} (hwf : c.wf) (i : Inputs) :
    (bootConfig c i).networkId ≠ 0x0000 ∧ (bootConfig c i).networkId ≠ 0xFFFF := by
  unfold bootConfig
  split
  case isTrue hvalid => exact ((storedRecordValid_iff i).mp hvalid).2
  case isFalse => exact (drawNetworkId_range c i.rand hwf).2.2

/-- A config set keeps the thresholds those of the current rating (46_responder.md R280, 10_state.md R36). -/
theorem thresholds_setField {s : State} (f : CfgField) (v : Half)
    (h : s.thr = thresholdsOf s.config s.cfg.trackSetCurrentThreshold) :
    (setField s f v).thr = thresholdsOf s.config (writeField s.cfg f v).trackSetCurrentThreshold := by
  cases f with
  | trackSetCurrentThreshold => rfl
  | sendChannel2Data | trackFreeToSetDelay | trackSetToFreeDelay => exact h

/-! ### The invariant under a new value of one bank -/

section
variable {s : State} (h : s.Inv)
include h

theorem State.Inv.tableInv (p : PortIdx) : TableInv s.slots[p] := by
  obtain ⟨-, -, hslot, hdistinct, -⟩ := h
  exact ⟨hslot p, hdistinct p⟩

theorem State.Inv.withPorts {v : Vector PortRegs 8} (hv : ∀ p : PortIdx, PortInv s.config v[p])
    (hoff : ∀ p : PortIdx, v[p].voltageOffset = s.ports[p].voltageOffset) : State.Inv { s with ports := v } := by
  obtain ⟨hwf, -, hslot, hdistinct, hsched, hsess, hbuf, hbooted, hunbooted⟩ := h
  refine ⟨hwf, hv, hslot, hdistinct, hsched, hsess, hbuf, fun hb => ?_, hunbooted⟩
  obtain ⟨hthr, hzero, hones, hbase⟩ := hbooted hb
  exact ⟨hthr, hzero, hones, fun p => (hoff p).trans (hbase p)⟩

theorem State.Inv.withSlots {v : Vector (Vector Slot 4) 8} (hv : ∀ p : PortIdx, TableInv v[p]) :
    State.Inv { s with slots := v } := by
  obtain ⟨hwf, hport, -, -, hrest⟩ := h
  exact ⟨hwf, hport, fun p => (hv p).1, fun p => (hv p).2, hrest⟩

theorem State.Inv.withSched {sc : Scheduler} (hsc : SchedInv s.config sc)
    (hidle : s.booted = false → sc.captureRunning = false ∧ sc.dataReady = false) :
    State.Inv { s with sched := sc } := by
  obtain ⟨hwf, hport, hslot, hdistinct, -, hsess, hbuf, hbooted, -⟩ := h
  exact ⟨hwf, hport, hslot, hdistinct, hsc, hsess, hbuf, hbooted, hidle⟩

theorem State.Inv.withSess {se : Session} (hse : SessionInv se) : State.Inv { s with sess := se } := by
  obtain ⟨hwf, hport, hslot, hdistinct, hsched, -, hrest⟩ := h
  exact ⟨hwf, hport, hslot, hdistinct, hsched, hse, hrest⟩

theorem State.Inv.withBuf {m : Memory} (hm : BufferInv s.config m) : State.Inv { s with buf := m } := by
  obtain ⟨hwf, hport, hslot, hdistinct, hsched, hsess, -, hrest⟩ := h
  exact ⟨hwf, hport, hslot, hdistinct, hsched, hsess, hm, hrest⟩

theorem State.Inv.withCfg {cfg : ModuleConfig} {thr : Thresholds}
    (hcfg : s.booted = true → thr = thresholdsOf s.config cfg.trackSetCurrentThreshold ∧
      cfg.networkId ≠ 0x0000 ∧ cfg.networkId ≠ 0xFFFF)
    (hoff : cfg.voltageOffset = s.cfg.voltageOffset) : State.Inv { s with cfg := cfg, thr := thr } := by
  obtain ⟨hwf, hport, hslot, hdistinct, hsched, hsess, hbuf, hbooted, hunbooted⟩ := h
  refine ⟨hwf, hport, hslot, hdistinct, hsched, hsess, hbuf, fun hb => ?_, hunbooted⟩
  obtain ⟨hthr, hzero, hones⟩ := hcfg hb
  obtain ⟨-, -, -, hbase⟩ := hbooted hb
  exact ⟨hthr, hzero, hones, fun p => (hbase p).trans (by rw [hoff])⟩

/-! The records, the keep-alive stamp and the programming window are none of its banks. -/

theorem State.Inv.emit (rs : List Output) : (s.emit rs).Inv := h

theorem State.Inv.emitPing : (emitPing s).Inv := h

theorem State.Inv.emitPersist : (emitPersist s).Inv := h

theorem State.Inv.finish (st : Status) (v : ResultValue) : (s.finish st v).Inv := h

theorem State.Inv.withProg (prog : ProgWindow) : State.Inv { s with prog := prog } := h

/-! ### The effects -/

theorem inv_slotupd (p : PortIdx) {addr : BitVec 14} {dir : BitVec 2} (h0 : addr ≠ 0) (h255 : addr ≠ 255)
    (hdir : dir ≠ 3) : (slotupd p addr dir s).Inv := by
  refine h.withSlots fun q => ?_
  have hget := setSlots_get s p q (updateSlots s.slots[p] addr dir s.inp.now)
  refine hget ▸ ?_
  split
  · exact (h.tableInv p).updateSlots s.inp.now h0 h255 hdir
  · exact h.tableInv q

theorem inv_pair (p : PortIdx) (r : FrameRecord) : (pair p r s).Inv := by
  rcases pair_cases p r s with ⟨ch, heq⟩ | ⟨ch, addr, h0, h255, heq⟩ <;> rw [heq]
  · exact h
  · have hchan : (s.setChan p ch).Inv := h
    exact inv_slotupd hchan p h0 h255 (directionOf_ne _)

theorem inv_occacc (p : PortIdx) : (occacc p s).Inv := by
  refine h.withPorts (fun q => ?_) fun q => (keepsConfiguration_occacc p s).offset_eq q
  obtain ⟨hwf, hport, -⟩ := h
  obtain ⟨-, -, -, -, -, -, -, -, hocc, -⟩ := hwf
  refine setPort_get s p q _ ▸ ?_
  split
  · exact portInv_foldl _ _ hocc (bufWindow_le s s.config.csLen) (hport p)
  · exact hport q

theorem inv_slotexp : (slotexp s).Inv := by
  refine h.withSlots fun p => ?_
  have hget : (slotexp s).slots[p] = Vector.ofFn fun k => expireSlot s.config s.inp.now s.slots[p][k] :=
    Vector.getElem_ofFn p.isLt
  exact hget ▸ (h.tableInv p).expire s.config s.inp.now

theorem inv_addrreport : (addrreport s).Inv := by
  refine State.Inv.withSlots (s := s) h fun p => ?_
  have hget : (addrreport s).slots[p] = reportedSlots s.slots[p] := Vector.getElem_ofFn p.isLt
  exact hget ▸ (h.tableInv p).report

theorem inv_occdeb : (occdeb s).Inv := by
  refine State.Inv.withPorts (s := s) h (fun p => ?_) fun p => (keepsConfiguration_occdeb s).offset_eq p
  have hget : (occdeb s).ports[p] = announcePort s.cfg s.inp.now s.ports[p] := Vector.getElem_ofFn p.isLt
  obtain ⟨-, hport, -⟩ := h
  exact hget ▸ portInv_announcePort (hport p)

/-- Releasing a finished buffer keeps the scheduler within its invariant (45_scheduler.md R240). -/
theorem inv_release : State.Inv { s with sched := { s.sched with dataReady := false } } := by
  obtain ⟨-, -, -, -, ⟨-, hrc⟩, -, -, -, hunbooted⟩ := id h
  exact h.withSched ⟨fun hboth => Bool.noConfusion hboth.2, hrc⟩ fun hb => ⟨(hunbooted hb).1, rfl⟩

theorem inv_analyseCapture : (analyseCapture s).Inv := by
  unfold analyseCapture
  split
  · exact inv_pair h _ _
  · exact inv_occacc h _

theorem inv_consumeCapture : (consumeCapture s).Inv := by
  unfold consumeCapture
  split
  · rw [← (analyseCapture_sched_out s).1]
    exact inv_release (inv_analyseCapture h)
  · exact h

theorem inv_expireProg : (expireProg s).Inv := by
  rcases expireProg_cases s with ⟨-, -, heq⟩ | ⟨-, heq⟩ <;> rw [heq] <;> exact h

theorem inv_keepAlive : (keepAlive s).Inv := by
  rcases keepAlive_cases s with ⟨-, heq⟩ | ⟨-, heq⟩ <;> rw [heq] <;> exact h

theorem inv_tickPhases : (tickPhases s).Inv :=
  inv_keepAlive (inv_expireProg (inv_addrreport (inv_occdeb (inv_slotexp (inv_consumeCapture h)))))

/-- An accepted trigger leaves the count below `MAX_CONSEC` (45_scheduler.md R231 to R233). -/
theorem inv_armCapture (kind : Boundary) (hb : s.booted = true) (hidle : captureIdle s.sched = true) :
    (armCapture kind s).Inv := by
  obtain ⟨hwf, -, -, -, ⟨-, hrc⟩, -⟩ := id h
  obtain ⟨-, -, -, -, -, -, -, -, -, hmax, -⟩ := hwf
  obtain ⟨-, hready⟩ := startCapture_flags s.config kind s.sched
  have hcount : (startCapture s.config kind s.sched).rcCount < s.config.maxConsec := by
    rcases startCapture_cases s.config kind s.sched with ⟨-, -, heq⟩ | ⟨-, hmore, heq⟩ | ⟨-, heq⟩ <;> rw [heq]
    · exact hmax
    · exact lt_of_le_of_ne hrc hmore
    · exact hrc
  refine State.Inv.withSched (s := s) h ⟨fun hboth => ?_, hcount⟩ fun hb' => absurd hb (ne_true_of_eq_false hb')
  exact absurd (hready.symm.trans hboth.2) (ne_true_of_eq_false ((captureIdle_iff s.sched).mp hidle).2)

/-- A capture handed over has set the one flag and cleared the other (45_scheduler.md R236). -/
theorem inv_handOver (hb : s.booted = true) :
    State.Inv { s with sched := { s.sched with captureRunning := false, dataReady := true } } := by
  obtain ⟨-, -, -, -, ⟨-, hrc⟩, -⟩ := id h
  exact h.withSched ⟨fun hboth => Bool.noConfusion hboth.1, hrc⟩ fun hb' => absurd hb (ne_true_of_eq_false hb')

/-- `BOOT` establishes what the invariant asks of a booted module (70_reset_and_hazards.md R352, R353). -/
theorem inv_loadConfig : (loadConfig (bootConfig s.config s.inp) s).Inv := by
  obtain ⟨hwf, hport, hslot, hdistinct, hsched, hsess, hbuf, -, -⟩ := h
  have hget (p : PortIdx) : (loadConfig (bootConfig s.config s.inp) s).ports[p] =
      { s.ports[p] with voltageOffset := (bootConfig s.config s.inp).voltageOffset[p] } := Vector.getElem_ofFn p.isLt
  obtain ⟨hzero, hones⟩ := bootConfig_networkId hwf s.inp
  refine ⟨hwf, fun p => ?_, hslot, hdistinct, hsched, hsess, hbuf, fun _ => ⟨rfl, hzero, hones, fun p => ?_⟩,
    fun hb => Bool.noConfusion hb⟩
  · exact hget p ▸ hport p
  · exact congrArg PortRegs.voltageOffset (hget p)

/-- A collision draws an id that is no sentinel (46_responder.md R266). -/
theorem inv_collide : (collide s).Inv := by
  obtain ⟨hwf, -, -, -, -, -, -, hbooted, -⟩ := id h
  refine State.Inv.withCfg (s := s) h (fun hb => ?_) rfl
  obtain ⟨hthr, -⟩ := hbooted hb
  exact ⟨hthr, (drawNetworkId_range s.config s.inp.rand hwf).2.2⟩

theorem inv_setField (f : CfgField) (v : Half) : (setField s f v).Inv := by
  obtain ⟨-, -, -, -, -, -, -, hbooted, -⟩ := id h
  refine State.Inv.withCfg (s := s) h (fun hb => ?_) (writeField_voltageOffset ..)
  obtain ⟨hthr, hzero, hones, -⟩ := hbooted hb
  exact ⟨thresholds_setField f v hthr, (writeField_networkId s.cfg f v).symm ▸ ⟨hzero, hones⟩⟩

/-- An address set writes a field of which the invariant asks nothing (46_responder.md R290). -/
theorem inv_setAddress (addr : Half) : State.Inv { s with
    cfg := { s.cfg with moduleAddress := addr }, prog := { s.prog with active := false } } := by
  obtain ⟨-, -, -, -, -, -, -, hbooted, -⟩ := id h
  refine State.Inv.withCfg (s := s) h (fun hb => ?_) rfl
  obtain ⟨hthr, hzero, hones, -⟩ := hbooted hb
  exact ⟨hthr, hzero, hones⟩

/-- An adopted master comes with session 0 (46_responder.md R270, R271(d)). -/
theorem inv_adoptMaster (masterUid : Half) : (adoptMaster s masterUid).Inv :=
  h.withSess ⟨rfl, fun hnone => Bool.noConfusion hnone⟩

end

/-- Every effect of a well-formed operation keeps the invariant. -/
theorem Acts.inv {i : Instr} {s u : State} (hact : Acts i s u) (hi : i.wf = true) (h : s.Inv) : u.Inv := by
  cases hact with
  | nothing => exact h
  | answer m => exact h.emit [.tx m]
  | openWindow | closeWindow => exact h.withProg _
  | ping => exact h.emitPing
  | arm kind _ hb hidle => exact inv_armCapture h kind hb hidle
  | handOver _ hb => exact inv_handOver h hb
  | tick => exact inv_tickPhases h
  | load => exact inv_loadConfig h
  | initialise => exact (inv_loadConfig h).emitPersist
  | collide => exact inv_collide h
  | adopt => exact (inv_adoptMaster h _).emitPing
  | writeField tag f value => exact (inv_setField h f value).emitPersist.emit _
  | setAddress addr => exact (inv_setAddress h addr).emitPersist
  | pair p r => exact inv_pair h p r
  | slotupd p addr dir hslotupd =>
    subst hslotupd
    simp only [Instr.wf, slotAddressOk, directionOk, Bool.and_eq_true, bne_iff_ne] at hi
    obtain ⟨⟨h0, h255⟩, hdir⟩ := hi
    exact inv_slotupd h p h0 h255 hdir
  | slotexp => exact inv_slotexp h
  | addrreport => exact inv_addrreport h
  | occacc p => exact inv_occacc h p
  | occdeb => exact inv_occdeb h

/-- Every well-formed operation keeps the invariant; a result record does not touch it. -/
theorem inv_of_exec {i : Instr} {s t : State} (hi : i.wf = true) (h : s.Inv) (hexec : exec i s = .next t) : t.Inv := by
  cases performs_of_exec hexec with
  | micro _ hact => exact hact.inv hi h
  | command _ hact st v => exact (hact.inv hi h).finish st v

/-! ### Reset and the events of the host -/

/-- The slots after `rst` (10_state.md R37). -/
theorem resetWith_slots_get (c : Config) (p : PortIdx) (k : SlotIdx) : (State.resetWith c).slots[p][k] = Slot.reset := by
  simp [State.resetWith]

/-- The ports after `rst` (10_state.md R37). -/
theorem resetWith_ports_get (c : Config) (p : PortIdx) : (State.resetWith c).ports[p] = PortRegs.reset :=
  Vector.getElem_ofFn p.isLt

/-- The empty BUF is in canonical form, within any bounds (log 6). -/
theorem bufferInv_nil (c : Config) : BufferInv c [] :=
  ⟨⟨.nil, fun _ hc => absurd hc List.not_mem_nil⟩, fun _ hc => absurd hc List.not_mem_nil⟩

/-- The registers of the reset table meet the invariant (10_state.md R37). -/
theorem inv_resetWith {c : Config} (hwf : c.wf) : (State.resetWith c).Inv := by
  obtain ⟨-, -, -, -, -, -, -, -, hocc, hmax, -⟩ := id hwf
  refine ⟨hwf, fun p => ?_, fun p k => ?_, fun p j k _ hj => ?_, ⟨fun hboth => Bool.noConfusion hboth.1, hmax⟩,
    ⟨rfl, fun _ => rfl⟩, bufferInv_nil c, fun hb => Bool.noConfusion hb, fun _ => ⟨rfl, rfl⟩⟩
  · rw [resetWith_ports_get]
    exact ⟨hocc, Nat.zero_le _⟩
  · rw [resetWith_slots_get]
    exact ⟨(by decide : (0 : BitVec 2) ≠ 3), (by decide : (0 : BitVec 14) ≠ 255), fun _ => rfl⟩
  · rw [resetWith_slots_get] at hj
    exact absurd rfl hj

/-- Settles O12: the module modelled has parameters that meet R8. -/
theorem resetMeetsInvariant : Obligations.ResetMeetsInvariant :=
  ⟨inv_resetWith Config.board.ok, fun _ => inv_resetWith⟩

theorem inv_assertReset {s : State} (h : s.Inv) : (assertReset s).Inv := by
  obtain ⟨hwf, -, -, -, -, -, hbuf, -⟩ := h
  exact (inv_resetWith hwf).withBuf hbuf

/-- A fill stays within BUF and keeps its form, whatever the host supplies (70_reset_and_hazards.md R362, log 18). -/
theorem inv_fillBuffer {s : State} (h : s.Inv) (samples : List Half) : (fillBuffer samples s).Inv := by
  obtain ⟨-, -, -, -, -, -, ⟨hwf, hbelow⟩, -⟩ := id h
  refine State.Inv.withBuf (s := s) h ⟨writeSamples_wf _ _ _ hwf, writeSamples_below _ _ _ _ hbelow ?_⟩
  exact (Nat.zero_add _).le.trans (storedSamples_length_le s.config s.buf samples)

/-- Settles O11: a command that is accepted is well formed, and the other events write BUF, the records or every
register. -/
theorem stepKeepsInvariant : Obligations.StepKeepsInvariant := by
  intro s t h hstep
  cases hhost : s.host with
  | nil =>
    cases (step_of_idle hhost).symm.trans hstep
    exact h
  | cons event rest =>
    have hrest : State.Inv { s with host := rest } := h
    cases event with
    | rst =>
      cases (step_of_rst hhost).symm.trans hstep
      exact inv_assertReset hrest
    | fill samples =>
      cases (step_of_fill hhost).symm.trans hstep
      exact inv_fillBuffer hrest samples
    | take ch =>
      cases (step_of_take hhost).symm.trans hstep
      exact h
    | command w inp =>
      cases hready : commandReady s with
      | false =>
        cases (step_of_command_waiting hhost hready).symm.trans hstep
        exact h
      | true =>
        rw [step_of_command_accepted hhost hready] at hstep
        have haccepted : (acceptCommand inp rest s).Inv := h
        exact inv_of_exec (wf_of_isPortCommand (isPortCommand_decode w)) haccepted hstep

end Sys2Proof.Machine
end
